-- ==== Sys2Proof/Word.lean ====
section
/-! DEFINITION. The words of the core: their widths (00_scope R7, 10_state R33) and the plainest views of them. -/

namespace Sys2Proof

/-- A stack entry or operand: 32 bits, unsigned (R7 `WORD_WIDTH`, R8). -/
abbrev Word := BitVec 32

/-- A stack index and the width of `TOP`: 8 bits (R7 `PTR_WIDTH`). -/
abbrev Index := BitVec 8

/-- A character of the source and the output sample: 8 bits (R7 `CHAR_CODE`, `OUT_WIDTH`). -/
abbrev Byte := BitVec 8

/-- One entry of the token memory: 33 bits (R75). -/
abbrev TokenWord := BitVec 33

/-- The stack file: 256 entries (R7 `STACK_DEPTH`, R20). -/
abbrev Stack := Vector Word 256

/-- The stack file of zeros a successful `LOAD` leaves (R221). -/
def Stack.zero : Stack := Vector.replicate 256 0

end Sys2Proof
end

