-- ==== Sys2Proof/Machine/Flags.lean ====
section
/-! DEFINITION. The core has no flags or condition codes (10_state R31): a comparison's outcome is a stack value. -/

namespace Sys2Proof.Machine

/-- All-ones for true and 0 for false (45_compare R180, R181, R182). -/
def truthValue (b : Bool) : Word := if b then 0xFFFFFFFF else 0

end Sys2Proof.Machine
end

