-- ==== Sys2Proof/Config.lean ====
section
/-! DEFINITION. What is fixed for this hardware (00_scope R7) and the free values: what the spec leaves without a value. -/

namespace Sys2Proof.Config

/-- `PUT_OFFSET_BIAS`: 1 for this hardware (R7, R41, R130; decision D8). -/
def putOffsetBias : Nat := 1

/-- FREE VALUE. What the stack file holds after the `n`-th use of a free value: a failed `LOAD` discards the stack (R193)
and the spec gives no value for what is left (93 K8).  No body: nothing can be proved of it.  Log 5. -/
opaque freeStack : Nat → Stack

/-- FREE VALUE. What `TOP` holds there (R193, K8).  Log 5. -/
opaque freeTop : Nat → Index

end Sys2Proof.Config
end

