-- ==== Sys2Proof/Machine/State.lean ====
section
/-! DEFINITION. The state of the core (10_state R33), the reasons a step can stop, and the state after power-on. -/

namespace Sys2Proof.Machine

/-- `STATUS`, the transaction state (R29). -/
inductive Status where
  /-- No valid program: `COMPUTE` is refused. -/
  | unloaded
  /-- A valid program is loaded and no transaction is running. -/
  | ready
  /-- A `COMPUTE` is running. -/
  | busy
  deriving DecidableEq, Repr

/-- The cause of an `InvalidProgram` error (R191). -/
inductive Cause where
  /-- Code 1: a body character is in class `INVALID`. -/
  | invalidCharacter
  /-- Code 2: a numeral fails to parse; no `LOAD` reaches it (R192). -/
  | malformedNumeral
  /-- Code 3: the body decodes to more than `PROG_CAPACITY` tokens. -/
  | programTooLong
  deriving DecidableEq, Repr

/-- The two host transactions (R204). -/
inductive Request where
  /-- `LOAD(src)`: the whole source string. -/
  | load (src : List Byte)
  /-- `COMPUTE(t)`: any integer. -/
  | compute (t : Int)
  deriving DecidableEq, Repr

/-- How the host issues a request. -/
inductive HostMove where
  /-- After the reply to the request before it: what the host must do (R204, H-WAIT). -/
  | afterReply (r : Request)
  /-- At once, whatever the core is doing: an overlapping request when a transaction is running (R196). -/
  | atOnce (r : Request)
  deriving DecidableEq, Repr

/-- What the host gets back (R204). -/
inductive Reply where
  /-- The `LOAD` succeeded. -/
  | ok
  /-- The `LOAD` failed: `InvalidProgram(code, pos)` (R191). -/
  | invalidProgram (cause : Cause) (pos : Nat)
  /-- The byte of a `COMPUTE` (R97). -/
  | sample (b : Byte)
  deriving DecidableEq, Repr

/-- A `LOAD` in progress: the locals of R63's scan over the source, the header included (R60). -/
structure Scan where
  /-- The source bytes not yet read. -/
  rest : List Byte
  /-- The byte offset in the source of the next one (`srcpos`, R63). -/
  pos : Nat
  /-- The header's delimiter has passed (R60). -/
  inBody : Bool
  /-- The texts of the tokens so far, oldest first (`toks`, R63). -/
  toks : List (List Byte)
  /-- `INNUM`: it exists only while a `LOAD` is scanning (R30). -/
  innum : Bool
  deriving DecidableEq, Repr

/-- The whole state of the core and, below the line, of its host port. -/
structure State where
  /-- `S`, the stack file (R20). -/
  stack : Stack
  /-- `TOP`, the top-of-stack pointer (R24). -/
  top : Index
  /-- `PROG`, the token memory; `N` is its length (R25, R75). -/
  prog : List TokenWord
  /-- `PC`, the token index (R26). -/
  pc : Nat
  /-- `T`, the time latch (R27). -/
  t : Word
  /-- `OUT`, the output window register (R28). -/
  out : Byte
  /-- `STATUS` (R29). -/
  status : Status
  /-- The `LOAD` in progress, with `INNUM` (R30, R63). -/
  scan : Option Scan
  /-- `PROG_CAPACITY`, an open parameter of the implementation: `none` is unbounded (R7, D11).  Log 6. -/
  capacity : Option Nat
  /-- The host's requests still to come, the next one first (R204).  Log 2. -/
  host : List HostMove
  /-- The reply to the last request, none while one is being served (R204).  Log 3. -/
  reply : Option Reply
  /-- The model's own: how many free values the run has used.  Log 5. -/
  free : Nat
  deriving DecidableEq, Repr

/-- Why the machine stops with a fault. -/
inductive Fault where
  /-- Raised by the dispatcher on a `PROG` word that encodes no token.  Safe: no `LOAD` produces one (R91), the layout is the
  spec's internal choice (R75), and no behaviour is given for one.  Log 8. -/
  | badTokenWord
  deriving DecidableEq, Repr

/-- Why a step gives no meaning. -/
inductive Refusal where
  /-- Raised by the dispatcher for an instruction without a meaning; no arm raises it.  Safe. -/
  | notModelled (mnemonic : String)
  /-- Raised for a `COMPUTE` while `STATUS = UNLOADED` (R196).  Safe: the spec represents it as a refusal. -/
  | computeUnloaded
  /-- Raised for a `COMPUTE` that overlaps a running one (R196).  Safe. -/
  | computeBusy
  /-- Raised for a `LOAD` that overlaps a running `COMPUTE` (R196).  Safe. -/
  | loadBusy
  /-- Raised for a `LOAD` that overlaps a running `LOAD` (93 K10).  Safe.  Log 11. -/
  | loadWhileLoading
  deriving DecidableEq, Repr

/-- `s` with the stack file `x`. -/
def State.withStack (s : State) (x : Stack) : State := { s with stack := x }

/-- `s` with the pointer `x`. -/
def State.withTop (s : State) (x : Index) : State := { s with top := x }

/-- `s` with the token index `x`. -/
def State.withPc (s : State) (x : Nat) : State := { s with pc := x }

/-- `s` with the `LOAD` in progress `x`. -/
def State.withScan (s : State) (x : Option Scan) : State := { s with scan := x }

/-- Power-on (R220): `UNLOADED`, no token program.  The spec leaves `S`, `TOP`, `OUT`, `T` and `PC` without a value; DESIGN
CHOICE, unsafe: 0 for each (log 4). -/
def State.reset : State where
  stack := Stack.zero
  top := 0
  prog := []
  pc := 0
  t := 0
  out := 0
  status := .unloaded
  scan := none
  capacity := none
  host := []
  reply := none
  free := 0

end Sys2Proof.Machine
end

