-- ==== Sys2Proof/Machine/Operands.lean ====
section
/-! DEFINITION. The circular stack address generator and reads of the stack file (20_memory R41, R45), and the output
window's view (R43). -/

namespace Sys2Proof.Machine

/-- The push target `(x + 1) mod 256` (R9, R41). -/
def inc8 (x : Index) : Index := x + 1

/-- The index after a pop, `(x - 1 + 256) mod 256` (R9, R41). -/
def dec8 (x : Index) : Index := x - 1

/-- `S[i]`: a whole 32-bit entry; every index is a valid one (R42, R44, R45). -/
def readEntry (s : State) (i : Index) : Word := s.stack[i.toNat]'i.isLt

/-- `v1 = S[TOP]`, the value a two-operand operation pops first (R11). -/
abbrev firstOperand (s : State) : Word := readEntry s s.top

/-- `v2 = S[dec8(TOP)]`, the value it pops second (R11). -/
abbrev secondOperand (s : State) : Word := readEntry s (dec8 s.top)

/-- The indirect index `(TOP - ((S[TOP] + b) mod 256)) mod 256` (R41). -/
def ind (b : Nat) (s : State) : Index :=
  BitVec.ofInt 8 ((s.top.toNat : Int) - (((readEntry s s.top).toNat + b) % 256 : Nat))

/-- What the output window presents: `S[TOP][7:0]` (R43, R97). -/
def windowByte (s : State) : Byte := (readEntry s s.top).extractLsb' 0 8

end Sys2Proof.Machine
end

