-- ==== Sys2Proof/Machine/Ops.lean ====
section
/-! DEFINITION. The named operations over the stack file: the two primitives of 40_machine (R92, R93), the shapes the
instructions share, and the failing of a `LOAD` (R193), which is what this core has in the place of an exception: no token
raises one and nothing is returned from (R190, R194). -/

namespace Sys2Proof.Machine

/-- `S[i] <- v`: a whole 32-bit entry (R10, R45). -/
def writeEntry (i : Index) (v : Word) (s : State) : State :=
  s.withStack (s.stack.set i.toNat v i.isLt)

/-- `push(v)`, `v` any integer: advance `TOP`, then write `v mod 2^32` there (R92). -/
def push (v : Int) (s : State) : State :=
  let s1 := s.withTop (inc8 s.top)
  writeEntry s1.top (BitVec.ofInt 32 v) s1

/-- `push` of a 32-bit value. -/
def pushWord (v : Word) (s : State) : State := push v.toNat s

/-- `pop()`: read the top entry, then retreat `TOP`; no entry is written (R93). -/
def pop (s : State) : Word × State :=
  (readEntry s s.top, s.withTop (dec8 s.top))

/-- `v1 <- pop(); v2 <- pop(); push(f(v2, v1))` (R94). -/
def binary (f : Word → Word → Int) (s : State) : Host.Outcome State Fault Refusal :=
  let p1 := pop s
  let p2 := pop p1.2
  .next (push (f p2.1 p1.1) p2.2)

/-- No state changes (R115). -/
def noOperation (s : State) : Host.Outcome State Fault Refusal := .next s

/-- PUT under a bias: `a <- ind(b); S[a] <- zext_32(inc8(TOP)); pop()` (R130). -/
def putWith (b : Nat) (s : State) : Host.Outcome State Fault Refusal :=
  let a := ind b s
  let s1 := writeEntry a (BitVec.setWidth 32 (inc8 s.top)) s
  .next (pop s1).2

/-- A failed `LOAD` (R193): no token program, `STATUS` `UNLOADED`, the error returned to the host, the earlier program and
stack discarded.  What is left in `S` and `TOP` has no value (K8): a free value (log 5). -/
def failLoad (cause : Cause) (pos : Nat) (s : State) : State :=
  { s with
    prog := []
    status := .unloaded
    scan := none
    reply := some (.invalidProgram cause pos)
    stack := Config.freeStack s.free
    top := Config.freeTop s.free
    free := s.free + 1 }

/-- The number of an `InvalidProgram` cause (R191). -/
def causeCode : Cause → Nat
  | .invalidCharacter => 1
  | .malformedNumeral => 2
  | .programTooLong => 3

end Sys2Proof.Machine
end

