-- ==== Sys2Proof/Machine/Arithmetic.lean ====
section
/-! DEFINITION. Arithmetic instructions (43_arithmetic): MUL, DIV, ADD, SUB, MOD.  Each result is the exact integer; `push`
reduces it modulo 2^32 (R92, R145). -/

namespace Sys2Proof.Machine

/-- MUL `d` (R140). -/
def execMul (s : State) : Host.Outcome State Fault Refusal :=
  binary (fun v2 v1 => (v1.toNat : Int) * v2.toNat) s

/-- DIV `e` (R141). -/
def execDiv (s : State) : Host.Outcome State Fault Refusal :=
  binary (fun v2 v1 => if v1 = 0 then 0 else ((v2.toNat / v1.toNat : Nat) : Int)) s

/-- ADD `f` (R142). -/
def execAdd (s : State) : Host.Outcome State Fault Refusal :=
  binary (fun v2 v1 => (v2.toNat : Int) + v1.toNat) s

/-- SUB `g` (R143). -/
def execSub (s : State) : Host.Outcome State Fault Refusal :=
  binary (fun v2 v1 => (v2.toNat : Int) - v1.toNat) s

/-- MOD `h` (R144). -/
def execMod (s : State) : Host.Outcome State Fault Refusal :=
  binary (fun v2 v1 => if v1 = 0 then 0 else ((v2.toNat % v1.toNat : Nat) : Int)) s

end Sys2Proof.Machine
end

