-- ==== Sys2Proof/Machine/Bitwise.lean ====
section
/-! DEFINITION. Shift and bitwise instructions (44_bitwise): LSHIFT, RSHIFT, AND, OR, XOR, NOT. -/

namespace Sys2Proof.Machine

/-- LSHIFT `j` (R160): the count is compared whole, not reduced modulo 32. -/
def execLshift (s : State) : Host.Outcome State Fault Refusal :=
  binary (fun v2 v1 => if v1.toNat < 32 then ((v2.toNat * 2 ^ v1.toNat : Nat) : Int) else 0) s

/-- RSHIFT `k` (R161): zeros come in at the top. -/
def execRshift (s : State) : Host.Outcome State Fault Refusal :=
  binary (fun v2 v1 => if v1.toNat < 32 then ((v2.toNat / 2 ^ v1.toNat : Nat) : Int) else 0) s

/-- AND `l` (R162). -/
def execAnd (s : State) : Host.Outcome State Fault Refusal :=
  binary (fun v2 v1 => ((v2 &&& v1).toNat : Int)) s

/-- OR `m` (R163). -/
def execOr (s : State) : Host.Outcome State Fault Refusal :=
  binary (fun v2 v1 => ((v2 ||| v1).toNat : Int)) s

/-- XOR `n` (R164). -/
def execXor (s : State) : Host.Outcome State Fault Refusal :=
  binary (fun v2 v1 => ((v2 ^^^ v1).toNat : Int)) s

/-- NOT `o` (R165): `~v = 0xFFFFFFFF - v`. -/
def execNot (s : State) : Host.Outcome State Fault Refusal :=
  let p := pop s
  .next (push (0xFFFFFFFF - (p.1.toNat : Int)) p.2)

end Sys2Proof.Machine
end

