-- ==== Sys2Proof/Machine/Compare.lean ====
section
/-! DEFINITION. Comparison instructions (45_compare): LT, GT, EQ.  All are unsigned. -/

namespace Sys2Proof.Machine

/-- LT `s` (R180). -/
def execLt (s : State) : Host.Outcome State Fault Refusal :=
  binary (fun v2 v1 => ((truthValue (decide (v2.toNat < v1.toNat))).toNat : Int)) s

/-- GT `t` (R181): LT with `>`, the operands in the same places (decision D9). -/
def execGt (s : State) : Host.Outcome State Fault Refusal :=
  binary (fun v2 v1 => ((truthValue (decide (v2.toNat > v1.toNat))).toNat : Int)) s

/-- EQ `u` (R182). -/
def execEq (s : State) : Host.Outcome State Fault Refusal :=
  binary (fun v2 v1 => ((truthValue (decide (v2 = v1))).toNat : Int)) s

end Sys2Proof.Machine
end

