-- ==== Sys2Proof/Machine/Indirect.lean ====
section
/-! DEFINITION. Indirect stack access (42_indirect): PUT and PICK. -/

namespace Sys2Proof.Machine

/-- PUT `b` (R130), under this hardware's `PUT_OFFSET_BIAS`. -/
def execPut (s : State) : Host.Outcome State Fault Refusal := putWith Config.putOffsetBias s

/-- PICK `q` (R131): `a <- ind(1); v <- S[a]; pop(); push(v)`, the entry fetched before the pop. -/
def execPick (s : State) : Host.Outcome State Fault Refusal :=
  let v := readEntry s (ind 1 s)
  .next (pushWord v (pop s).2)

end Sys2Proof.Machine
end

