-- ==== Sys2Proof/Machine/LoaderForms.lean ====
section
/-! DEFINITION. The two forms that are no token: the filler and the line delimiter.  They act on the `LOAD` that scans
them, never on a running `COMPUTE` (30_encoding R60, R64, R66). -/

namespace Sys2Proof.Machine

/-- The scan after a filler: no token, and `INNUM` is 0 (R64, R66). -/
def scanFiller (sc : Scan) : Scan := { sc with innum := false }

/-- The scan after a delimiter: the body has begun; `INNUM` keeps its value (R60, R64). -/
def scanDelimiter (sc : Scan) : Scan := { sc with inBody := true }

/-- FILL `.` (R66). -/
def execFill (s : State) : Host.Outcome State Fault Refusal := .next (s.withScan (s.scan.map scanFiller))

/-- DELIM `!` (R60). -/
def execDelim (s : State) : Host.Outcome State Fault Refusal := .next (s.withScan (s.scan.map scanDelimiter))

end Sys2Proof.Machine
end

