-- ==== Sys2Proof/Machine/Reserved.lean ====
section
/-! DEFINITION. The reserved letters: recognised by the decoder, executed as no-ops (R74, R115). -/

namespace Sys2Proof.Machine

/-- RSV `G` (R115): no state changes. -/
def execRsvG (s : State) : Host.Outcome State Fault Refusal := noOperation s

/-- RSV `H` (R115): no state changes. -/
def execRsvH (s : State) : Host.Outcome State Fault Refusal := noOperation s

/-- RSV `I` (R115): no state changes. -/
def execRsvI (s : State) : Host.Outcome State Fault Refusal := noOperation s

/-- RSV `J` (R115): no state changes. -/
def execRsvJ (s : State) : Host.Outcome State Fault Refusal := noOperation s

/-- RSV `K` (R115): no state changes. -/
def execRsvK (s : State) : Host.Outcome State Fault Refusal := noOperation s

/-- RSV `L` (R115): no state changes. -/
def execRsvL (s : State) : Host.Outcome State Fault Refusal := noOperation s

/-- RSV `M` (R115): no state changes. -/
def execRsvM (s : State) : Host.Outcome State Fault Refusal := noOperation s

/-- RSV `N` (R115): no state changes. -/
def execRsvN (s : State) : Host.Outcome State Fault Refusal := noOperation s

/-- RSV `O` (R115): no state changes. -/
def execRsvO (s : State) : Host.Outcome State Fault Refusal := noOperation s

/-- RSV `P` (R115): no state changes. -/
def execRsvP (s : State) : Host.Outcome State Fault Refusal := noOperation s

/-- RSV `Q` (R115): no state changes. -/
def execRsvQ (s : State) : Host.Outcome State Fault Refusal := noOperation s

/-- RSV `R` (R115): no state changes. -/
def execRsvR (s : State) : Host.Outcome State Fault Refusal := noOperation s

/-- RSV `S` (R115): no state changes. -/
def execRsvS (s : State) : Host.Outcome State Fault Refusal := noOperation s

/-- RSV `T` (R115): no state changes. -/
def execRsvT (s : State) : Host.Outcome State Fault Refusal := noOperation s

/-- RSV `U` (R115): no state changes. -/
def execRsvU (s : State) : Host.Outcome State Fault Refusal := noOperation s

/-- RSV `V` (R115): no state changes. -/
def execRsvV (s : State) : Host.Outcome State Fault Refusal := noOperation s

/-- RSV `W` (R115): no state changes. -/
def execRsvW (s : State) : Host.Outcome State Fault Refusal := noOperation s

/-- RSV `X` (R115): no state changes. -/
def execRsvX (s : State) : Host.Outcome State Fault Refusal := noOperation s

/-- RSV `Y` (R115): no state changes. -/
def execRsvY (s : State) : Host.Outcome State Fault Refusal := noOperation s

/-- RSV `Z` (R115): no state changes. -/
def execRsvZ (s : State) : Host.Outcome State Fault Refusal := noOperation s

/-- RSV `i` (R115): no state changes. -/
def execRsvLowI (s : State) : Host.Outcome State Fault Refusal := noOperation s

/-- RSV `v` (R115): no state changes. -/
def execRsvLowV (s : State) : Host.Outcome State Fault Refusal := noOperation s

/-- RSV `w` (R115): no state changes. -/
def execRsvLowW (s : State) : Host.Outcome State Fault Refusal := noOperation s

/-- RSV `x` (R115): no state changes. -/
def execRsvLowX (s : State) : Host.Outcome State Fault Refusal := noOperation s

/-- RSV `y` (R115): no state changes. -/
def execRsvLowY (s : State) : Host.Outcome State Fault Refusal := noOperation s

/-- RSV `z` (R115): no state changes. -/
def execRsvLowZ (s : State) : Host.Outcome State Fault Refusal := noOperation s

end Sys2Proof.Machine
end

