-- ==== Sys2Proof/Machine/StackMoves.lean ====
section
/-! DEFINITION. Stack and data-movement instructions (41_stack_ops): LIT, TIME, DROP, DUP, SWAP. -/

namespace Sys2Proof.Machine

/-- LIT (R110): `push(v)`. -/
def execLit (v : Word) (s : State) : Host.Outcome State Fault Refusal := .next (pushWord v s)

/-- TIME `a` (R111): `push(T)`. -/
def execTime (s : State) : Host.Outcome State Fault Refusal := .next (pushWord s.t s)

/-- DROP `c` (R112): `pop()`, the value discarded. -/
def execDrop (s : State) : Host.Outcome State Fault Refusal := .next (pop s).2

/-- DUP `p` (R113): `v <- pop(); push(v); push(v)`. -/
def execDup (s : State) : Host.Outcome State Fault Refusal :=
  let p := pop s
  .next (pushWord p.1 (pushWord p.1 p.2))

/-- SWAP `r` (R114): `v1 <- pop(); v2 <- pop(); push(v1); push(v2)`. -/
def execSwap (s : State) : Host.Outcome State Fault Refusal :=
  let p1 := pop s
  let p2 := pop p1.2
  .next (pushWord p2.1 (pushWord p1.1 p2.2))

end Sys2Proof.Machine
end

