-- ==== Sys2Proof/Syntax.lean ====
section
/-! DEFINITION. The instructions of the glitch code: one constructor for each row of the opcode map (30_encoding R73). -/

namespace Sys2Proof

/-- One source form of the glitch code (R71, R73): a literal, one of the 20 defined opcodes, one of the 26 reserved
letters, the filler, or the line delimiter.  The first 47 are tokens; the last two never become one. -/
inductive Instr where
  /-- A numeral: push its 32-bit stored value (R70, R110). -/
  | lit (v : Word)
  /-- `a` TIME: push the sample time `T` (R111). -/
  | time
  /-- `b` PUT: store the next slot index at an indirect entry, then pop (R130). -/
  | put
  /-- `c` DROP: discard the top (R112). -/
  | drop
  /-- `d` MUL: multiply, low 32 bits (R140). -/
  | mul
  /-- `e` DIV: divide, 0 on a zero divisor (R141). -/
  | div
  /-- `f` ADD: add modulo 2^32 (R142). -/
  | add
  /-- `g` SUB: subtract modulo 2^32 (R143). -/
  | sub
  /-- `h` MOD: remainder, 0 on a zero divisor (R144). -/
  | mod
  /-- `j` LSHIFT: logical shift left, 0 for a count of 32 or more (R160). -/
  | lshift
  /-- `k` RSHIFT: logical shift right, 0 for a count of 32 or more (R161). -/
  | rshift
  /-- `l` AND: bitwise and (R162). -/
  | and
  /-- `m` OR: bitwise inclusive or (R163). -/
  | or
  /-- `n` XOR: bitwise exclusive or (R164). -/
  | xor
  /-- `o` NOT: bitwise complement of the top (R165). -/
  | not
  /-- `p` DUP: duplicate the top (R113). -/
  | dup
  /-- `q` PICK: replace the top by an indirectly addressed entry (R131). -/
  | pick
  /-- `r` SWAP: exchange the top two entries (R114). -/
  | swap
  /-- `s` LT: unsigned less-than (R180). -/
  | lt
  /-- `t` GT: unsigned greater-than (R181). -/
  | gt
  /-- `u` EQ: equality (R182). -/
  | eq
  /-- `G`: a reserved letter, no operation (R115). -/
  | rsvG
  /-- `H`: a reserved letter, no operation (R115). -/
  | rsvH
  /-- `I`: a reserved letter, no operation (R115). -/
  | rsvI
  /-- `J`: a reserved letter, no operation (R115). -/
  | rsvJ
  /-- `K`: a reserved letter, no operation (R115). -/
  | rsvK
  /-- `L`: a reserved letter, no operation (R115). -/
  | rsvL
  /-- `M`: a reserved letter, no operation (R115). -/
  | rsvM
  /-- `N`: a reserved letter, no operation (R115). -/
  | rsvN
  /-- `O`: a reserved letter, no operation (R115). -/
  | rsvO
  /-- `P`: a reserved letter, no operation (R115). -/
  | rsvP
  /-- `Q`: a reserved letter, no operation (R115). -/
  | rsvQ
  /-- `R`: a reserved letter, no operation (R115). -/
  | rsvR
  /-- `S`: a reserved letter, no operation (R115). -/
  | rsvS
  /-- `T`: a reserved letter, no operation (R115). -/
  | rsvT
  /-- `U`: a reserved letter, no operation (R115). -/
  | rsvU
  /-- `V`: a reserved letter, no operation (R115). -/
  | rsvV
  /-- `W`: a reserved letter, no operation (R115). -/
  | rsvW
  /-- `X`: a reserved letter, no operation (R115). -/
  | rsvX
  /-- `Y`: a reserved letter, no operation (R115). -/
  | rsvY
  /-- `Z`: a reserved letter, no operation (R115). -/
  | rsvZ
  /-- `i`: a reserved letter, no operation (R115). -/
  | rsvLowI
  /-- `v`: a reserved letter, no operation (R115). -/
  | rsvLowV
  /-- `w`: a reserved letter, no operation (R115). -/
  | rsvLowW
  /-- `x`: a reserved letter, no operation (R115). -/
  | rsvLowX
  /-- `y`: a reserved letter, no operation (R115). -/
  | rsvLowY
  /-- `z`: a reserved letter, no operation (R115). -/
  | rsvLowZ
  /-- `.`: the filler; it emits no token and ends a numeral (R66). -/
  | fill
  /-- `!`: the line delimiter; it emits no token, and the first one ends the header (R60). -/
  | delim
  deriving DecidableEq, Repr

end Sys2Proof
end

