-- ==== Sys2Proof/Machine/Dispatch.lean ====
section
/-! DEFINITION. The dispatcher's fixed mapping from an instruction to its meaning (R73, R91). -/

namespace Sys2Proof.Machine

/-- The operation the opcode map assigns to an instruction (R73), performed. -/
def exec (i : Instr) (s : State) : Host.Outcome State Fault Refusal :=
  match i with
  | .lit v => Sys2Proof.Machine.execLit v s
  | .time => Sys2Proof.Machine.execTime s
  | .put => Sys2Proof.Machine.execPut s
  | .drop => Sys2Proof.Machine.execDrop s
  | .mul => Sys2Proof.Machine.execMul s
  | .div => Sys2Proof.Machine.execDiv s
  | .add => Sys2Proof.Machine.execAdd s
  | .sub => Sys2Proof.Machine.execSub s
  | .mod => Sys2Proof.Machine.execMod s
  | .lshift => Sys2Proof.Machine.execLshift s
  | .rshift => Sys2Proof.Machine.execRshift s
  | .and => Sys2Proof.Machine.execAnd s
  | .or => Sys2Proof.Machine.execOr s
  | .xor => Sys2Proof.Machine.execXor s
  | .not => Sys2Proof.Machine.execNot s
  | .dup => Sys2Proof.Machine.execDup s
  | .pick => Sys2Proof.Machine.execPick s
  | .swap => Sys2Proof.Machine.execSwap s
  | .lt => Sys2Proof.Machine.execLt s
  | .gt => Sys2Proof.Machine.execGt s
  | .eq => Sys2Proof.Machine.execEq s
  | .rsvG => Sys2Proof.Machine.execRsvG s
  | .rsvH => Sys2Proof.Machine.execRsvH s
  | .rsvI => Sys2Proof.Machine.execRsvI s
  | .rsvJ => Sys2Proof.Machine.execRsvJ s
  | .rsvK => Sys2Proof.Machine.execRsvK s
  | .rsvL => Sys2Proof.Machine.execRsvL s
  | .rsvM => Sys2Proof.Machine.execRsvM s
  | .rsvN => Sys2Proof.Machine.execRsvN s
  | .rsvO => Sys2Proof.Machine.execRsvO s
  | .rsvP => Sys2Proof.Machine.execRsvP s
  | .rsvQ => Sys2Proof.Machine.execRsvQ s
  | .rsvR => Sys2Proof.Machine.execRsvR s
  | .rsvS => Sys2Proof.Machine.execRsvS s
  | .rsvT => Sys2Proof.Machine.execRsvT s
  | .rsvU => Sys2Proof.Machine.execRsvU s
  | .rsvV => Sys2Proof.Machine.execRsvV s
  | .rsvW => Sys2Proof.Machine.execRsvW s
  | .rsvX => Sys2Proof.Machine.execRsvX s
  | .rsvY => Sys2Proof.Machine.execRsvY s
  | .rsvZ => Sys2Proof.Machine.execRsvZ s
  | .rsvLowI => Sys2Proof.Machine.execRsvLowI s
  | .rsvLowV => Sys2Proof.Machine.execRsvLowV s
  | .rsvLowW => Sys2Proof.Machine.execRsvLowW s
  | .rsvLowX => Sys2Proof.Machine.execRsvLowX s
  | .rsvLowY => Sys2Proof.Machine.execRsvLowY s
  | .rsvLowZ => Sys2Proof.Machine.execRsvLowZ s
  | .fill => Sys2Proof.Machine.execFill s
  | .delim => Sys2Proof.Machine.execDelim s

end Sys2Proof.Machine
end

