-- ==== Sys2Proof/WellFormed.lean ====
section
/-! DEFINITION. Which instructions may stand in the token program. -/

namespace Sys2Proof

/-- A well-formed token: the forms F-LIT and F-OP of 30_encoding R71 produce one, F-FILL and F-DELIM produce none. -/
def Instr.wf : Instr → Bool
  | .fill => false
  | .delim => false
  | _ => true

end Sys2Proof
end

