-- ==== Sys2Proof/Decode.lean ====
section
/-! DEFINITION. The encodings of the glitch code: characters and their classes (30_encoding R61, R62), the forms of the
source text (R71), numerals (R70), the 33-bit token word (R75), and the encoder written from the same tables. -/

namespace Sys2Proof

/-- The classes of R61, and the delimiter, which R61 sets apart ("`!` never reaches the body"). -/
inductive CharClass where
  /-- `HEX`: a numeral digit. -/
  | hex
  /-- `FILL`: the filler `.`. -/
  | fill
  /-- The delimiter `!`. -/
  | delim
  /-- `OP`: a defined opcode. -/
  | op
  /-- `RSV`: a reserved opcode. -/
  | rsv
  /-- `INVALID`: every other character. -/
  | invalid
  deriving DecidableEq, Repr

/-- Why a decoder rejects its input. -/
inductive DecodeError where
  /-- No byte is left. -/
  | endOfText
  /-- The first byte is in class `INVALID` (R68). -/
  | invalidCharacter
  /-- A token word whose kind bit says `OP` and whose other bits are no opcode's (R75, R91). -/
  | notAToken
  deriving DecidableEq, Repr

/-- `0`-`9` and `A`-`F`, upper case only (R61, R62). -/
def isHexDigit (c : Byte) : Bool :=
  (0x30 ≤ c.toNat && c.toNat ≤ 0x39) || (0x41 ≤ c.toNat && c.toNat ≤ 0x46)

/-- A digit's value: `code - 0x30` for `0`-`9`, `code - 0x37` for `A`-`F` (R62). -/
def digitValue (c : Byte) : Nat :=
  if c.toNat ≤ 0x39 then c.toNat - 0x30 else c.toNat - 0x37

/-- The 20 defined opcodes (R73). -/
def opcodeOf (c : Byte) : Option Instr :=
  match c.toNat with
  | 0x61 => some .time
  | 0x62 => some .put
  | 0x63 => some .drop
  | 0x64 => some .mul
  | 0x65 => some .div
  | 0x66 => some .add
  | 0x67 => some .sub
  | 0x68 => some .mod
  | 0x6A => some .lshift
  | 0x6B => some .rshift
  | 0x6C => some .and
  | 0x6D => some .or
  | 0x6E => some .xor
  | 0x6F => some .not
  | 0x70 => some .dup
  | 0x71 => some .pick
  | 0x72 => some .swap
  | 0x73 => some .lt
  | 0x74 => some .gt
  | 0x75 => some .eq
  | _ => none

/-- The 26 reserved letters (R73, R74). -/
def reservedOf (c : Byte) : Option Instr :=
  match c.toNat with
  | 0x47 => some .rsvG
  | 0x48 => some .rsvH
  | 0x49 => some .rsvI
  | 0x4A => some .rsvJ
  | 0x4B => some .rsvK
  | 0x4C => some .rsvL
  | 0x4D => some .rsvM
  | 0x4E => some .rsvN
  | 0x4F => some .rsvO
  | 0x50 => some .rsvP
  | 0x51 => some .rsvQ
  | 0x52 => some .rsvR
  | 0x53 => some .rsvS
  | 0x54 => some .rsvT
  | 0x55 => some .rsvU
  | 0x56 => some .rsvV
  | 0x57 => some .rsvW
  | 0x58 => some .rsvX
  | 0x59 => some .rsvY
  | 0x5A => some .rsvZ
  | 0x69 => some .rsvLowI
  | 0x76 => some .rsvLowV
  | 0x77 => some .rsvLowW
  | 0x78 => some .rsvLowX
  | 0x79 => some .rsvLowY
  | 0x7A => some .rsvLowZ
  | _ => none

/-- The operation a one-character token names (R73). -/
def letterOf (c : Byte) : Option Instr :=
  match opcodeOf c with
  | some i => some i
  | none => reservedOf c

/-- The class of a character (R61, R62). -/
def classOf (c : Byte) : CharClass :=
  if isHexDigit c then .hex
  else if c = 0x2E then .fill
  else if c = 0x21 then .delim
  else if (opcodeOf c).isSome then .op
  else if (reservedOf c).isSome then .rsv
  else .invalid

/-- The base-16 value of a digit string, the leftmost digit most significant (R70). -/
def hexValue (ds : List Byte) : Nat :=
  ds.foldl (fun acc c => acc * 16 + digitValue c) 0

/-- The stored value of a numeral: its value modulo 2^32 (R70). -/
def numeralWord (ds : List Byte) : Word :=
  BitVec.ofNat 32 (hexValue ds)

/-- Reads ONE form from the front of a text (R71) and gives the text behind it: a numeral is the longest run of digits, every
other form one character.  Total; a first byte of class `INVALID` is rejected. -/
def decode : List Byte → Except DecodeError (Instr × List Byte)
  | [] => .error .endOfText
  | c :: rest =>
    match classOf c with
    | .hex => .ok (.lit (numeralWord (c :: rest.takeWhile isHexDigit)), rest.dropWhile isHexDigit)
    | .fill => .ok (.fill, rest)
    | .delim => .ok (.delim, rest)
    | _ =>
      match letterOf c with
      | some i => .ok (i, rest)
      | none => .error .invalidCharacter

/-- Reads a whole text form by form, dropping the forms that are no token; `fuel` at least the text's length suffices. -/
def decodeTokens : Nat → List Byte → Except DecodeError (List Instr)
  | _, [] => .ok []
  | 0, _ :: _ => .ok []
  | fuel + 1, c :: cs =>
    match decode (c :: cs) with
    | .error e => .error e
    | .ok (i, rest) =>
      match decodeTokens fuel rest with
      | .error e => .error e
      | .ok is => .ok (if i.wf then i :: is else is)

/-- The literal's token word: kind bit 1, the value in bits [31:0] (R75). -/
def litTokenWord (v : Word) : TokenWord :=
  (1#1 ++ v).cast (by omega)

/-- The opcode's token word: kind bit 0, the character code in bits [7:0], zeros between (R75). -/
def opTokenWord (c : Byte) : TokenWord :=
  BitVec.setWidth 33 c

/-- The dispatcher reads `w[32]` first, then `w[31:0]` or `w[7:0]` (R75, R91). -/
def decodeToken (w : TokenWord) : Except DecodeError Instr :=
  if w.getLsbD 32 then .ok (.lit (w.extractLsb' 0 32))
  else if w.extractLsb' 8 24 = 0 then
    match letterOf (w.extractLsb' 0 8) with
    | some i => .ok i
    | none => .error .notAToken
  else .error .notAToken

/-- The token word of a token's text: a numeral where its first character is a digit, an opcode otherwise (R63, R75). -/
def tokenOfText : List Byte → TokenWord
  | [] => opTokenWord 0
  | c :: cs => if isHexDigit c then litTokenWord (numeralWord (c :: cs)) else opTokenWord c

/-- The bytes of a row of the opcode table, the first byte at the lowest bits of the number. -/
def tableBytes (nbits w : Nat) : List Byte :=
  (List.range ((nbits + 7) / 8)).map fun k => BitVec.ofNat 8 (w / 256 ^ k)

/-- The instruction the decoder reads from a word numbered as the opcode table numbers it. -/
def decodeTableWord (nbits w : Nat) : Option Instr :=
  match decode (tableBytes nbits w) with
  | .ok (i, _) => some i
  | .error _ => none

/-- A digit's character (R62). -/
def digitChar (n : Nat) : Byte :=
  if n < 10 then BitVec.ofNat 8 (0x30 + n) else BitVec.ofNat 8 (0x37 + n)

/-- Eight upper-case digits, the most significant first; leading zeros change nothing (R70). -/
def hexDigits (v : Word) : List Byte :=
  [7, 6, 5, 4, 3, 2, 1, 0].map fun k => digitChar (v.toNat / 16 ^ k % 16)

/-- The source text of an instruction (R62, R73, R76). -/
def encode : Instr → List Byte
  | .lit v => hexDigits v
  | .time => [0x61]
  | .put => [0x62]
  | .drop => [0x63]
  | .mul => [0x64]
  | .div => [0x65]
  | .add => [0x66]
  | .sub => [0x67]
  | .mod => [0x68]
  | .lshift => [0x6A]
  | .rshift => [0x6B]
  | .and => [0x6C]
  | .or => [0x6D]
  | .xor => [0x6E]
  | .not => [0x6F]
  | .dup => [0x70]
  | .pick => [0x71]
  | .swap => [0x72]
  | .lt => [0x73]
  | .gt => [0x74]
  | .eq => [0x75]
  | .rsvG => [0x47]
  | .rsvH => [0x48]
  | .rsvI => [0x49]
  | .rsvJ => [0x4A]
  | .rsvK => [0x4B]
  | .rsvL => [0x4C]
  | .rsvM => [0x4D]
  | .rsvN => [0x4E]
  | .rsvO => [0x4F]
  | .rsvP => [0x50]
  | .rsvQ => [0x51]
  | .rsvR => [0x52]
  | .rsvS => [0x53]
  | .rsvT => [0x54]
  | .rsvU => [0x55]
  | .rsvV => [0x56]
  | .rsvW => [0x57]
  | .rsvX => [0x58]
  | .rsvY => [0x59]
  | .rsvZ => [0x5A]
  | .rsvLowI => [0x69]
  | .rsvLowV => [0x76]
  | .rsvLowW => [0x77]
  | .rsvLowX => [0x78]
  | .rsvLowY => [0x79]
  | .rsvLowZ => [0x7A]
  | .fill => [0x2E]
  | .delim => [0x21]

/-- The token word the decoder writes for an instruction (R63, R75). -/
def tokenWord (i : Instr) : TokenWord :=
  tokenOfText (encode i)

end Sys2Proof
end

