-- ==== Sys2Proof/Machine/Transactions.lean ====
section
/-! DEFINITION. The host's two transactions: how each begins and ends (40_machine R90, 30_encoding R63, 70 R221), which
requests are refused (60 R196), and the load-time decoder as ONE function of the source (R60, R63). -/

namespace Sys2Proof.Machine

/-- The request a host move issues. -/
def requestOf : HostMove → Request
  | .afterReply r => r
  | .atOnce r => r

/-- `COMPUTE(t)` begins: `BUSY`, `T <- t mod 2^32`, `PC <- 0` (R90). -/
def beginCompute (t : Int) (s : State) : State :=
  { s with status := .busy, t := BitVec.ofInt 32 t, pc := 0, reply := none }

/-- `COMPUTE` ends: `OUT <- S[TOP][7:0]`, `READY`, the byte returned (R90, R97). -/
def finishCompute (s : State) : State :=
  { s with out := windowByte s, status := .ready, reply := some (.sample (windowByte s)) }

/-- A `LOAD` before its first character: in the header, no token, `INNUM` 0 (R60, R63). -/
def startScan (src : List Byte) : Scan :=
  { rest := src, pos := 0, inBody := false, toks := [], innum := false }

/-- `LOAD(src)` begins: `UNLOADED` until success (R63). -/
def beginLoad (src : List Byte) (s : State) : State :=
  { s with status := .unloaded, scan := some (startScan src), reply := none }

/-- More tokens than `PROG_CAPACITY` (R63, R191). -/
def overCapacity (capacity : Option Nat) (n : Nat) : Bool :=
  match capacity with
  | none => false
  | some c => decide (c < n)

/-- A successful `LOAD`, the core's reset to a defined state (R221). -/
def installProgram (prog : List TokenWord) (s : State) : State :=
  { s with
    stack := Stack.zero
    top := 0
    out := 0
    prog := prog
    status := .ready
    scan := none
    reply := some .ok }

/-- "append c to the text of the last token in toks" (R63). -/
def extendLast (toks : List (List Byte)) (c : Byte) : List (List Byte) :=
  match toks with
  | [] => [[c]]
  | [text] => [text ++ [c]]
  | text :: more => text :: extendLast more c

/-- What one body character that is not `INVALID` does to the tokens so far and to `INNUM` (R63). -/
def scanChar (c : Byte) (toks : List (List Byte)) (innum : Bool) : List (List Byte) × Bool :=
  match classOf c with
  | .hex => (if innum then extendLast toks c else toks ++ [[c]], true)
  | .fill => (toks, false)
  | _ => (toks ++ [[c]], false)

/-- The body of a source, each character with its byte offset: the header and every `!` removed (R60). -/
def bodyOf (src : List Byte) : List (Byte × Nat) :=
  (src.zipIdx.dropWhile fun p => p.1 != 0x21).filter fun p => p.1 != 0x21

/-- R63's loop over the body: the token texts, or the offset of the first `INVALID` character. -/
def scanBody : List (Byte × Nat) → List (List Byte) → Bool → Except Nat (List (List Byte))
  | [], toks, _ => .ok toks
  | (c, p) :: more, toks, innum =>
    if classOf c = .invalid then .error p
    else scanBody more (scanChar c toks innum).1 (scanChar c toks innum).2

/-- The whole decoder: the token program of a source, or the one error its `LOAD` reports (R63, R191, R192). -/
def loadResult (capacity : Option Nat) (src : List Byte) : Except (Cause × Nat) (List TokenWord) :=
  match scanBody (bodyOf src) [] false with
  | .error p => .error (.invalidCharacter, p)
  | .ok toks =>
    if overCapacity capacity toks.length then .error (.programTooLong, src.length)
    else .ok (toks.map tokenOfText)

/-- The refusal of a request that overlaps a running transaction (R196; 93 K10). -/
def overlapRefusal (s : State) : Option Refusal :=
  match s.host with
  | .atOnce r :: _ =>
    if s.status = .busy then
      match r with
      | .compute _ => some .computeBusy
      | .load _ => some .loadBusy
    else if s.scan.isSome then
      match r with
      | .compute _ => some .computeUnloaded
      | .load _ => some .loadWhileLoading
    else none
  | _ => none

/-- The core between transactions: it takes the host's next request, or idles keeping all state (R196, R203, R204). -/
def serveHost (s : State) : Host.Outcome State Fault Refusal :=
  match s.host with
  | [] => .next s
  | m :: more =>
    match requestOf m with
    | .load src => .next (beginLoad src { s with host := more })
    | .compute t =>
      if s.status = .ready then .next (beginCompute t { s with host := more })
      else .refused .computeUnloaded

/-- What the host goes on from after a refused request: the request is gone and no state of the core has changed (R196). -/
def withdrawRequest (s : State) : State := { s with host := s.host.tail }

end Sys2Proof.Machine
end

