-- ==== Sys2Proof/Machine/Cycle.lean ====
section
/-! DEFINITION. What one step of the core does: one character of a `LOAD`, one token of a `COMPUTE`, the end of either, or the
host's next request. -/

namespace Sys2Proof.Machine

/-- `PC <- PC + 1` after a token (R90). -/
def advancePc : Host.Outcome State Fault Refusal → Host.Outcome State Fault Refusal
  | .next s => .next (s.withPc (s.pc + 1))
  | .fault r => .fault r
  | .refused r => .refused r

/-- The dispatcher decodes one token word into one operation and performs it; then `PC` moves on (R90, R91). -/
def runToken (w : TokenWord) (s : State) : Host.Outcome State Fault Refusal :=
  match decodeToken w with
  | .ok i => advancePc (exec i s)
  | .error _ => .fault .badTokenWord

/-- A step of a running `COMPUTE`: the token at `PC` while `PC < N`, then the end (R90, R96). -/
def stepCompute (s : State) : Host.Outcome State Fault Refusal :=
  match s.prog[s.pc]? with
  | some w => runToken w s
  | none => .next (finishCompute s)

/-- The scan past one character. -/
def passChar (rest : List Byte) (sc : Scan) : Scan := { sc with rest := rest, pos := sc.pos + 1 }

/-- The end of the scan: the capacity check, then the program and the reset (R63, R221). -/
def finishLoad (sc : Scan) (s : State) : State :=
  if overCapacity s.capacity sc.toks.length then failLoad .programTooLong sc.pos s
  else installProgram (sc.toks.map tokenOfText) s

/-- One body character that is no delimiter: a filler acts as its instruction does, an `INVALID` character fails the `LOAD`
(R68), any other goes through R63's loop body. -/
def loadBodyChar (c : Byte) (rest : List Byte) (sc : Scan) (s : State) : Host.Outcome State Fault Refusal :=
  match classOf c with
  | .fill => exec .fill (s.withScan (some (passChar rest sc)))
  | .invalid => .next (failLoad .invalidCharacter sc.pos s)
  | _ =>
    .next (s.withScan (some { passChar rest sc with
      toks := (scanChar c sc.toks sc.innum).1, innum := (scanChar c sc.toks sc.innum).2 }))

/-- One source character: a delimiter acts as its instruction does, and the rest of the header is discarded unscanned
(R60, R69). -/
def loadChar (c : Byte) (rest : List Byte) (sc : Scan) (s : State) : Host.Outcome State Fault Refusal :=
  if classOf c = .delim then exec .delim (s.withScan (some (passChar rest sc)))
  else if sc.inBody then loadBodyChar c rest sc s
  else .next (s.withScan (some (passChar rest sc)))

/-- A step of a running `LOAD` (R63). -/
def stepLoad (sc : Scan) (s : State) : Host.Outcome State Fault Refusal :=
  match sc.rest with
  | [] => .next (finishLoad sc s)
  | c :: rest => loadChar c rest sc s

/-- One step of the core. -/
def cycle (s : State) : Host.Outcome State Fault Refusal :=
  match overlapRefusal s with
  | some r => .refused r
  | none =>
    match s.scan with
    | some sc => stepLoad sc s
    | none => if s.status = .busy then stepCompute s else serveHost s

/-- Every token of a list in order, `PC` moving on after each (R90, R95). -/
def runTokens : List TokenWord → State → Host.Outcome State Fault Refusal
  | [], s => .next s
  | w :: ws, s =>
    match runToken w s with
    | .next s1 => runTokens ws s1
    | .fault r => .fault r
    | .refused r => .refused r

/-- `COMPUTE(t)` as one transaction (R90). -/
def computeTransaction (t : Int) (s : State) : Host.Outcome State Fault Refusal :=
  match runTokens s.prog (beginCompute t s) with
  | .next s1 => .next (finishCompute s1)
  | .fault r => .fault r
  | .refused r => .refused r

/-- `s` in a `COMPUTE` whose program is the one token word `w`, its turn next. -/
def placeToken (w : TokenWord) (s : State) : State :=
  { s with prog := [w], pc := 0, status := .busy, scan := none, host := [] }

/-- `s` in a `LOAD` whose body's next characters are `bytes`. -/
def placeText (bytes : List Byte) (s : State) : State :=
  { s with
    status := .unloaded
    scan := some { rest := bytes, pos := 0, inBody := true, toks := [], innum := false }
    host := [] }

/-- A table word where the next step reads it: a token in the token memory, any other form in the source a `LOAD` scans. -/
def placeTableWord (nbits w : Nat) (s : State) : State :=
  match decodeTableWord nbits w with
  | some i => if i.wf then placeToken (tokenWord i) s else placeText (tableBytes nbits w) s
  | none => placeText (tableBytes nbits w) s

end Sys2Proof.Machine
end

