-- ==== Sys2Proof/Safety.lean ====
section
/-! DEFINITION. The terms the claims use: runs, what an instruction stores to, and the invariant every step keeps. -/

namespace Sys2Proof.Machine

/-- `k` steps of the machine, stopping at the first fault or refusal. -/
def runFor : Nat → State → Host.Outcome State Fault Refusal
  | 0, s => .next s
  | k + 1, s =>
    match step s with
    | .next t => runFor k t
    | .fault r => .fault r
    | .refused r => .refused r

/-- The 26 reserved letters (R74). -/
def reservedLetters : List Instr :=
  [.rsvG, .rsvH, .rsvI, .rsvJ, .rsvK, .rsvL, .rsvM,
   .rsvN, .rsvO, .rsvP, .rsvQ, .rsvR, .rsvS, .rsvT,
   .rsvU, .rsvV, .rsvW, .rsvX, .rsvY, .rsvZ, .rsvLowI,
   .rsvLowV, .rsvLowW, .rsvLowX, .rsvLowY, .rsvLowZ]

/-- A one-character token: its source text is the character `c`, read back alone or before any text, and its token word is
the character's code (R62, R71, R75). -/
def EncodedAs (i : Instr) (c : Byte) : Prop :=
  encode i = [c] ∧ (∀ rest : List Byte, decode (c :: rest) = .ok (i, rest)) ∧ decodeToken (BitVec.setWidth 33 c) = .ok i

/-- The result of a two-operand operation on `v2` and `v1`, as 43_arithmetic, 44_bitwise and 45_compare write it, an exact
number before `push` reduces it; none for every other instruction. -/
def binaryResult (i : Instr) (v2 v1 : Word) : Option Int :=
  match i with
  | .mul => some (v2.toNat * v1.toNat)
  | .div => some (if v1 = 0 then 0 else v2.toNat / v1.toNat)
  | .add => some (v2.toNat + v1.toNat)
  | .sub => some (v2.toNat - v1.toNat)
  | .mod => some (if v1 = 0 then 0 else v2.toNat % v1.toNat)
  | .lshift => some (if v1.toNat < 32 then v2.toNat * 2 ^ v1.toNat else 0)
  | .rshift => some (if v1.toNat < 32 then v2.toNat / 2 ^ v1.toNat else 0)
  | .and => some (v2 &&& v1).toNat
  | .or => some (v2 ||| v1).toNat
  | .xor => some (v2 ^^^ v1).toNat
  | .lt => some (if v2.toNat < v1.toNat then 0xFFFFFFFF else 0)
  | .gt => some (if v2.toNat > v1.toNat then 0xFFFFFFFF else 0)
  | .eq => some (if v2 = v1 then 0xFFFFFFFF else 0)
  | .lit _ | .time | .put | .drop | .not | .dup | .pick | .swap => none
  | .rsvG | .rsvH | .rsvI | .rsvJ | .rsvK | .rsvL | .rsvM | .rsvN | .rsvO | .rsvP | .rsvQ | .rsvR
  | .rsvS | .rsvT | .rsvU | .rsvV | .rsvW | .rsvX | .rsvY | .rsvZ | .rsvLowI | .rsvLowV | .rsvLowW
  | .rsvLowX | .rsvLowY | .rsvLowZ | .fill | .delim => none

/-- The entries an instruction stores to, computed from the state it starts in (R21). -/
def storedEntries (i : Instr) (s : State) : List Index :=
  match i with
  | .lit _ | .time => [inc8 s.top]
  | .dup => [s.top, inc8 s.top]
  | .swap => [dec8 s.top, s.top]
  | .put => [ind Config.putOffsetBias s]
  | .pick | .not => [s.top]
  | .mul | .div | .add | .sub | .mod | .lshift | .rshift | .and | .or | .xor | .lt | .gt | .eq => [dec8 s.top]
  | .drop | .rsvG | .rsvH | .rsvI | .rsvJ | .rsvK | .rsvL | .rsvM | .rsvN | .rsvO | .rsvP | .rsvQ
  | .rsvR | .rsvS | .rsvT | .rsvU | .rsvV | .rsvW | .rsvX | .rsvY | .rsvZ | .rsvLowI | .rsvLowV
  | .rsvLowW | .rsvLowX | .rsvLowY | .rsvLowZ | .fill | .delim => []

/-- `TOP` after an instruction that started with `p` (R24). -/
def topAfter (i : Instr) (p : Index) : Index :=
  match i with
  | .lit _ | .time | .dup => inc8 p
  | .put | .drop => dec8 p
  | .mul | .div | .add | .sub | .mod | .lshift | .rshift | .and | .or | .xor | .lt | .gt | .eq => dec8 p
  | .not | .pick | .swap => p
  | .rsvG | .rsvH | .rsvI | .rsvJ | .rsvK | .rsvL | .rsvM | .rsvN | .rsvO | .rsvP | .rsvQ | .rsvR
  | .rsvS | .rsvT | .rsvU | .rsvV | .rsvW | .rsvX | .rsvY | .rsvZ | .rsvLowI | .rsvLowV | .rsvLowW
  | .rsvLowX | .rsvLowY | .rsvLowZ | .fill | .delim => p

/-- `t` is `s` but for one stack entry and the pointer: `TOP` is `p`, the entry `a` holds `v`, every other entry and every
other register is as it was. -/
def WritesOne (s t : State) (p a : Index) (v : Word) : Prop :=
  t.top = p ∧ readEntry t a = v ∧ (∀ b : Index, b ≠ a → readEntry t b = readEntry s b) ∧
    t = { s with stack := t.stack, top := t.top }

/-- The word encodes a token (R75, R91). -/
def tokenOk (w : TokenWord) : Bool :=
  match decodeToken w with
  | .ok _ => true
  | .error _ => false

/-- A token's text: a run of digits, or one opcode or reserved letter (R63, R67). -/
def textOk (text : List Byte) : Bool :=
  match text with
  | [] => false
  | c :: cs => if isHexDigit c then cs.all isHexDigit else cs.isEmpty && (letterOf c).isSome

/-- `INNUM` is 1 only right after a digit, which the last token's text holds (R30, R64). -/
def innumOk (sc : Scan) : Bool :=
  match sc.toks.getLast? with
  | some text => !sc.innum || text.all isHexDigit
  | none => !sc.innum

/-- A `LOAD` in progress: every text is a token's, and the header has produced none (R63, R69). -/
def scanOk (sc : Scan) : Bool :=
  sc.toks.all textOk && innumOk sc && (sc.inBody || sc.toks.isEmpty)

/-- The invariant of the core. -/
structure Inv (s : State) : Prop where
  /-- No token is undecodable at run time (R91). -/
  tokens : s.prog.all tokenOk = true
  /-- `N` is at most `PROG_CAPACITY` (R25). -/
  capacity : overCapacity s.capacity s.prog.length = false
  /-- While a `COMPUTE` runs, `PC` is in `[0, N]`, no `LOAD` runs and no reply has been given (R26, R196, R226). -/
  busy : s.status = .busy → s.pc ≤ s.prog.length ∧ s.scan = none ∧ s.reply = none
  /-- `UNLOADED` outside a `LOAD` means no program (R25, R29). -/
  unloaded : s.status = .unloaded → s.scan = none → s.prog = []
  /-- While a `LOAD` runs, `STATUS` is `UNLOADED` and its tokens are well formed (R63). -/
  loading : ∀ sc, s.scan = some sc → s.status = .unloaded ∧ scanOk sc = true

/-- The next host move, if there is one, waits for the reply before it (H-WAIT). -/
def waits (moves : List HostMove) : Bool :=
  match moves with
  | .atOnce _ :: _ => false
  | _ => true

/-- The bytes a loaded core returns for a sequence of `COMPUTE` arguments, the observation of R100; none if one stops. -/
def samples : List Int → State → Option (List Byte)
  | [], _ => some []
  | t :: ts, s =>
    match computeTransaction t s with
    | .next s1 => (samples ts s1).map (s1.out :: ·)
    | _ => none

end Sys2Proof.Machine
end

