-- ==== Sys2Proof/Certificates/Slice0/Obligations.lean ====
section
/-! DEFINITION. The statements for the provers, from the numbered rules of the spec. -/

open Sys2Proof Sys2Proof.Machine

/-! ## The encodings -/

/-- R61: the classes of the characters, with the counts of its table; `!` stands in none of them.  The codes are R62's
(ASCII, which the spec marks as general knowledge, decision D4). -/
def Obligations.CharacterClassesAsListed : Prop :=
  (∀ c : Byte,
    (classOf c = .hex ↔ 0x30 ≤ c.toNat ∧ c.toNat ≤ 0x39 ∨ 0x41 ≤ c.toNat ∧ c.toNat ≤ 0x46) ∧
    (classOf c = .fill ↔ c.toNat = 0x2E) ∧
    (classOf c = .delim ↔ c.toNat = 0x21) ∧
    (classOf c = .op ↔ 0x61 ≤ c.toNat ∧ c.toNat ≤ 0x75 ∧ c.toNat ≠ 0x69) ∧
    (classOf c = .rsv ↔ 0x47 ≤ c.toNat ∧ c.toNat ≤ 0x5A ∨ c.toNat = 0x69 ∨ 0x76 ≤ c.toNat ∧ c.toNat ≤ 0x7A)) ∧
  ((List.range 256).filter fun k => classOf (BitVec.ofNat 8 k) = .hex).length = 16 ∧
  ((List.range 256).filter fun k => classOf (BitVec.ofNat 8 k) = .fill).length = 1 ∧
  ((List.range 256).filter fun k => classOf (BitVec.ofNat 8 k) = .op).length = 20 ∧
  ((List.range 256).filter fun k => classOf (BitVec.ofNat 8 k) = .rsv).length = 26

/-- R73: some words of the opcode map, one for each family, decode to the instruction they stand for. -/
def Obligations.SpecWordsDecode : Prop :=
  decodeTableWord 8 0x61 = some .time ∧ decodeTableWord 8 0x62 = some .put ∧ decodeTableWord 8 0x67 = some .sub ∧
  decodeTableWord 8 0x6B = some .rshift ∧ decodeTableWord 8 0x74 = some .gt ∧ decodeTableWord 8 0x5A = some .rsvZ ∧
  decodeTableWord 8 0x2E = some .fill ∧ decodeTableWord 8 0x21 = some .delim ∧ decodeTableWord 8 0x43 = some (.lit 0xC) ∧
  decodeTableWord 16 0x3843 = some (.lit 0xC8) ∧ decodeTableWord 8 0x20 = none

/-- R71, R73: the source text of every instruction reads back as it, with every operand, before any text; the text behind a
literal does not begin with a digit (R65: a digit there would extend it). -/
def Obligations.SourceTextRoundTrip : Prop :=
  ∀ (i : Instr) (rest : List Byte),
    (∀ v c, i = .lit v → rest.head? = some c → isHexDigit c = false) → decode (encode i ++ rest) = .ok (i, rest)

/-- R75, R91: a token word stands for one token, and only the token's own word does. -/
def Obligations.TokenWordMeansOneToken : Prop :=
  ∀ (w : TokenWord) (i : Instr), decodeToken w = .ok i ↔ i.wf = true ∧ tokenWord i = w

/-- R71: how the forms are found: a numeral is the longest run of digits, every other form one character, and only a
character of class `INVALID` is rejected. -/
def Obligations.SourceFormsFound : Prop :=
  ∀ (c : Byte) (rest : List Byte),
    (classOf c = .invalid → decode (c :: rest) = .error .invalidCharacter) ∧
    (classOf c ≠ .invalid → classOf c ≠ .hex → ∃ i, encode i = [c] ∧ decode (c :: rest) = .ok (i, rest)) ∧
    (classOf c = .hex → ∃ ds tail, rest = ds ++ tail ∧ (∀ d ∈ ds, classOf d = .hex) ∧
      (∀ d, tail.head? = some d → classOf d ≠ .hex) ∧ decode (c :: rest) = .ok (.lit (numeralWord (c :: ds)), tail))

/-- R70: the value of a numeral (the leftmost digit most significant, 93 G2), its leading zeros, and its low 32 bits as the
value of its last eight digits. -/
def Obligations.NumeralValueInBaseSixteen : Prop :=
  (∀ (d : Byte) (ds : List Byte), hexValue (d :: ds) = digitValue d * 16 ^ ds.length + hexValue ds) ∧
  (∀ ds : List Byte, numeralWord (0x30 :: ds) = numeralWord ds) ∧
  (∀ ds : List Byte, numeralWord ds = BitVec.ofNat 32 (hexValue ds)) ∧
  (∀ ds : List Byte, (∀ d ∈ ds, isHexDigit d = true) → numeralWord ds = numeralWord (ds.drop (ds.length - 8)))

/-! ## The instructions: encoding, result and frame -/

/-- R110: a maximal run of digits is the literal of its stored value, whose token word gives that value back. -/
def Obligations.LitPushesItsValue : Prop :=
  (∀ ds tail : List Byte, ds ≠ [] → (∀ d ∈ ds, classOf d = .hex) → (∀ d, tail.head? = some d → classOf d ≠ .hex) →
    decode (ds ++ tail) = .ok (.lit (numeralWord ds), tail) ∧
      decodeToken (tokenOfText ds) = .ok (.lit (numeralWord ds))) ∧
  ∀ (v : Word) (s : State), ∃ t, exec (.lit v) s = .next t ∧ WritesOne s t (inc8 s.top) (inc8 s.top) v

/-- R111: the latch `T`, which is `t mod 2^32` in the `COMPUTE(t)` that runs (decision D3). -/
def Obligations.TimePushesTheLatch : Prop :=
  EncodedAs .time 0x61 ∧
  (∀ s : State, ∃ t, exec .time s = .next t ∧ WritesOne s t (inc8 s.top) (inc8 s.top) s.t) ∧
  ∀ (a : Int) (s : State), ((beginCompute a s).t.toNat : Int) = a % 2 ^ 32

/-- R112: no entry changes. -/
def Obligations.DropMovesOnlyTop : Prop :=
  EncodedAs .drop 0x63 ∧ ∀ s : State, exec .drop s = .next { s with top := dec8 s.top }

/-- R113. -/
def Obligations.DupCopiesTheTop : Prop :=
  EncodedAs .dup 0x70 ∧
  ∀ s : State, ∃ t, exec .dup s = .next t ∧ WritesOne s t (inc8 s.top) (inc8 s.top) (readEntry s s.top)

/-- R114. -/
def Obligations.SwapExchangesTheTopTwo : Prop :=
  EncodedAs .swap 0x72 ∧
  ∀ s : State, ∃ t, exec .swap s = .next t ∧ t.top = s.top ∧
    readEntry t (dec8 s.top) = readEntry s s.top ∧ readEntry t s.top = readEntry s (dec8 s.top) ∧
    (∀ b, b ≠ s.top → b ≠ dec8 s.top → readEntry t b = readEntry s b) ∧ t = { s with stack := t.stack }

/-- R115, under `RESERVED_OP_POLICY = nop`, this hardware's value (decision D6). -/
def Obligations.ReservedLettersDoNothing : Prop :=
  reservedLetters.length = 26 ∧
  (∀ c : Byte, classOf c = .rsv → ∃ i, i ∈ reservedLetters ∧ EncodedAs i c) ∧
  ∀ i ∈ reservedLetters, (∃ c : Byte, classOf c = .rsv ∧ EncodedAs i c) ∧ ∀ s : State, exec i s = .next s

/-- R130, with this hardware's `PUT_OFFSET_BIAS` of 1 (decision D8), and the operation under either bias. -/
def Obligations.PutStoresTheNextIndex : Prop :=
  EncodedAs .put 0x62 ∧
  (∀ s : State, ∃ t, exec .put s = .next t ∧
    WritesOne s t (dec8 s.top) (ind 1 s) (BitVec.ofNat 32 ((s.top.toNat + 1) % 256))) ∧
  ∀ (b : Nat) (s : State), ∃ t, putWith b s = .next t ∧
    WritesOne s t (dec8 s.top)
      (BitVec.ofInt 8 (((s.top.toNat : Int) - (((readEntry s s.top).toNat : Int) + b) % 256) % 256))
      (BitVec.ofNat 32 ((s.top.toNat + 1) % 256))

/-- R131. -/
def Obligations.PickReadsBelowTheTop : Prop :=
  EncodedAs .pick 0x71 ∧
  ∀ s : State, ∃ t, exec .pick s = .next t ∧
    WritesOne s t s.top s.top (readEntry s
      (BitVec.ofInt 8 (((s.top.toNat : Int) - (((readEntry s s.top).toNat : Int) + 1) % 256) % 256)))

/-- R140. -/
def Obligations.MulKeepsLowBits : Prop :=
  EncodedAs .mul 0x64 ∧
  ∀ s : State, ∃ t, exec .mul s = .next t ∧ WritesOne s t (dec8 s.top) (dec8 s.top)
    (BitVec.ofNat 32 ((readEntry s s.top).toNat * (readEntry s (dec8 s.top)).toNat))

/-- R141. -/
def Obligations.DivIsZeroOnZeroDivisor : Prop :=
  EncodedAs .div 0x65 ∧
  ∀ s : State, ∃ t, exec .div s = .next t ∧ WritesOne s t (dec8 s.top) (dec8 s.top)
    (if readEntry s s.top = 0 then 0
     else BitVec.ofNat 32 ((readEntry s (dec8 s.top)).toNat / (readEntry s s.top).toNat))

/-- R142. -/
def Obligations.AddWraps : Prop :=
  EncodedAs .add 0x66 ∧
  ∀ s : State, ∃ t, exec .add s = .next t ∧ WritesOne s t (dec8 s.top) (dec8 s.top)
    (BitVec.ofNat 32 ((readEntry s (dec8 s.top)).toNat + (readEntry s s.top).toNat))

/-- R143: the entry below the top minus the top; a negative difference wraps. -/
def Obligations.SubTakesTopFromBelow : Prop :=
  EncodedAs .sub 0x67 ∧
  ∀ s : State, ∃ t, exec .sub s = .next t ∧ WritesOne s t (dec8 s.top) (dec8 s.top)
    (BitVec.ofInt 32 (((readEntry s (dec8 s.top)).toNat : Int) - (readEntry s s.top).toNat)) ∧
    ((readEntry t (dec8 s.top)).toNat : Int) =
      (((readEntry s (dec8 s.top)).toNat : Int) - (readEntry s s.top).toNat) % 2 ^ 32

/-- R144. -/
def Obligations.ModIsZeroOnZeroDivisor : Prop :=
  EncodedAs .mod 0x68 ∧
  ∀ s : State, ∃ t, exec .mod s = .next t ∧ WritesOne s t (dec8 s.top) (dec8 s.top)
    (if readEntry s s.top = 0 then 0
     else BitVec.ofNat 32 ((readEntry s (dec8 s.top)).toNat % (readEntry s s.top).toNat))

/-- R160: the count is compared whole. -/
def Obligations.LshiftIsZeroFromThirtyTwo : Prop :=
  EncodedAs .lshift 0x6A ∧
  ∀ s : State, ∃ t, exec .lshift s = .next t ∧ WritesOne s t (dec8 s.top) (dec8 s.top)
    (if (readEntry s s.top).toNat < 32
     then BitVec.ofNat 32 ((readEntry s (dec8 s.top)).toNat * 2 ^ (readEntry s s.top).toNat) else 0)

/-- R161: a logical shift. -/
def Obligations.RshiftIsZeroFromThirtyTwo : Prop :=
  EncodedAs .rshift 0x6B ∧
  ∀ s : State, ∃ t, exec .rshift s = .next t ∧ WritesOne s t (dec8 s.top) (dec8 s.top)
    (if (readEntry s s.top).toNat < 32
     then BitVec.ofNat 32 ((readEntry s (dec8 s.top)).toNat / 2 ^ (readEntry s s.top).toNat) else 0)

/-- R162. -/
def Obligations.AndIsBitwise : Prop :=
  EncodedAs .and 0x6C ∧
  ∀ s : State, ∃ t, exec .and s = .next t ∧
    WritesOne s t (dec8 s.top) (dec8 s.top) (readEntry s (dec8 s.top) &&& readEntry s s.top)

/-- R163. -/
def Obligations.OrIsBitwise : Prop :=
  EncodedAs .or 0x6D ∧
  ∀ s : State, ∃ t, exec .or s = .next t ∧
    WritesOne s t (dec8 s.top) (dec8 s.top) (readEntry s (dec8 s.top) ||| readEntry s s.top)

/-- R164. -/
def Obligations.XorIsBitwise : Prop :=
  EncodedAs .xor 0x6E ∧
  ∀ s : State, ∃ t, exec .xor s = .next t ∧
    WritesOne s t (dec8 s.top) (dec8 s.top) (readEntry s (dec8 s.top) ^^^ readEntry s s.top)

/-- R165. -/
def Obligations.NotComplementsTheTop : Prop :=
  EncodedAs .not 0x6F ∧
  ∀ s : State, ∃ t, exec .not s = .next t ∧
    WritesOne s t s.top s.top (BitVec.ofNat 32 (0xFFFFFFFF - (readEntry s s.top).toNat)) ∧
    readEntry t s.top = ~~~(readEntry s s.top)

/-- R180. -/
def Obligations.LtIsUnsigned : Prop :=
  EncodedAs .lt 0x73 ∧
  ∀ s : State, ∃ t, exec .lt s = .next t ∧ WritesOne s t (dec8 s.top) (dec8 s.top)
    (if (readEntry s (dec8 s.top)).toNat < (readEntry s s.top).toNat then 0xFFFFFFFF else 0)

/-- R181: `v2 > v1`, the operands where LT has them (decision D9). -/
def Obligations.GtIsUnsigned : Prop :=
  EncodedAs .gt 0x74 ∧
  ∀ s : State, ∃ t, exec .gt s = .next t ∧ WritesOne s t (dec8 s.top) (dec8 s.top)
    (if (readEntry s (dec8 s.top)).toNat > (readEntry s s.top).toNat then 0xFFFFFFFF else 0)

/-- R182. -/
def Obligations.EqComparesAllBits : Prop :=
  EncodedAs .eq 0x75 ∧
  ∀ s : State, ∃ t, exec .eq s = .next t ∧ WritesOne s t (dec8 s.top) (dec8 s.top)
    (if readEntry s (dec8 s.top) = readEntry s s.top then 0xFFFFFFFF else 0)

/-- R66, R64: the filler emits no token, so `PROG` never holds one, and at `LOAD` it does nothing but set `INNUM` to 0; the
step that meets one in the body runs it on the scan that has passed it.  The model's choices: one character a step, the filler
an instruction on the scan, which changes nothing where no `LOAD` runs (log 1), and the other registers kept in the middle of
a `LOAD` (log 9, log 14). -/
def Obligations.FillerEndsANumeral : Prop :=
  encode .fill = [0x2E] ∧ (∀ rest, decode (0x2E :: rest) = .ok (.fill, rest)) ∧
  (∀ w, decodeToken w ≠ .ok .fill) ∧
  (∀ (s : State) (sc : Scan), s.scan = some sc →
    exec .fill s = .next { s with scan := some { sc with innum := false } }) ∧
  (∀ s : State, s.scan = none → exec .fill s = .next s) ∧
  ∀ (s : State) (sc : Scan) (rest : List Byte), s.scan = some sc → sc.rest = 0x2E :: rest → sc.inBody = true →
    waits s.host = true → step s = exec .fill { s with scan := some { sc with rest := rest, pos := sc.pos + 1 } }

/-- R60, R64: the delimiter emits no token; at `LOAD` the body begins after it and `INNUM` is kept; the step that meets one
runs it on the scan that has passed it.  In the spec the delimiters are removed before the scan; that one is an instruction met
in a step of the `LOAD`, which changes nothing where no `LOAD` runs (log 1), and that the other registers are kept there
(log 9, log 14), are the model's choices. -/
def Obligations.DelimiterEndsTheHeader : Prop :=
  encode .delim = [0x21] ∧ (∀ rest, decode (0x21 :: rest) = .ok (.delim, rest)) ∧
  (∀ w, decodeToken w ≠ .ok .delim) ∧
  (∀ (s : State) (sc : Scan), s.scan = some sc →
    exec .delim s = .next { s with scan := some { sc with inBody := true } }) ∧
  (∀ s : State, s.scan = none → exec .delim s = .next s) ∧
  ∀ (s : State) (sc : Scan) (rest : List Byte), s.scan = some sc → sc.rest = 0x21 :: rest →
    waits s.host = true → step s = exec .delim { s with scan := some { sc with rest := rest, pos := sc.pos + 1 } }

/-! ## The instructions together -/

/-- R94, which the spec derives from R92 and R93: the net effect every two-operand operation has, the results those of the
table. -/
def Obligations.BinaryOperationsNetEffect : Prop :=
  ∀ (i : Instr) (r : Int) (s : State),
    binaryResult i (readEntry s (dec8 s.top)) (readEntry s s.top) = some r →
    ∃ t, exec i s = .next t ∧ t.top = dec8 s.top ∧ ((readEntry t (dec8 s.top)).toNat : Int) = r % 2 ^ 32 ∧
      readEntry t s.top = readEntry s s.top ∧ (∀ b, b ≠ dec8 s.top → readEntry t b = readEntry s b) ∧
      (s.top = 0 → t.top = 255)

/-- R190: no instruction raises an exception or is refused: every one of them answers a next state. -/
def Obligations.EveryInstructionCompletes : Prop :=
  ∀ (i : Instr) (s : State), ∃ t, exec i s = .next t

/-- The frame of every instruction (R22, R24, R32): the entries it does not store to, and every register but `TOP`, which goes
where the table says; only the filler and the delimiter touch the `LOAD` in progress, as instructions of the model (log 1). -/
def Obligations.InstructionFrame : Prop :=
  ∀ (i : Instr) (s t : State), exec i s = .next t →
    (∀ a, a ∉ storedEntries i s → readEntry t a = readEntry s a) ∧ t.top = topAfter i s.top ∧
    (i.wf = true → t.scan = s.scan) ∧ t.prog = s.prog ∧ t.pc = s.pc ∧ t.t = s.t ∧ t.out = s.out ∧
    t.status = s.status ∧ t.capacity = s.capacity ∧ t.host = s.host ∧ t.reply = s.reply ∧ t.free = s.free

/-- R145: DIV and MOD on the same operands are exact Euclidean division for a divisor other than 0, and both 0 for 0. -/
def Obligations.DivModEuclidean : Prop :=
  ∀ s : State, ∃ q r, exec .div s = .next q ∧ exec .mod s = .next r ∧
    (readEntry s s.top ≠ 0 →
      (readEntry s (dec8 s.top)).toNat =
        (readEntry s s.top).toNat * (readEntry q (dec8 s.top)).toNat + (readEntry r (dec8 s.top)).toNat ∧
      (readEntry r (dec8 s.top)).toNat < (readEntry s s.top).toNat) ∧
    (readEntry s s.top = 0 → readEntry q (dec8 s.top) = 0 ∧ readEntry r (dec8 s.top) = 0)

/-- R41: the indirect index as `TOP` plus the complement of the index value's low byte, and where it meets the top. -/
def Obligations.IndirectIndexIsTopPlusComplement : Prop :=
  ∀ s : State,
    ind 1 s = s.top + ~~~((readEntry s s.top).setWidth 8) ∧
    (ind 1 s = s.top ↔ (readEntry s s.top).setWidth 8 = (0xFF : Byte)) ∧
    (ind 1 s = dec8 s.top ↔ (readEntry s s.top).setWidth 8 = (0 : Byte))

/-- R113, R114, R165, the corner cases on two instructions: two SWAPs and two NOTs restore the state; DUP then DROP restores
`TOP` and the top value and leaves a copy above it. -/
def Obligations.PairsThatRestore : Prop :=
  ∀ s : State,
    (∃ u, exec .swap s = .next u ∧ exec .swap u = .next s) ∧
    (∃ u, exec .not s = .next u ∧ exec .not u = .next s) ∧
    (∃ u t, exec .dup s = .next u ∧ exec .drop u = .next t ∧ t.top = s.top ∧
      readEntry t t.top = readEntry s s.top ∧ readEntry t (inc8 s.top) = readEntry s s.top)

/-! ## The machine -/

/-- R91, R26, R95: where the word at `PC` decodes to an instruction, the step is that instruction's, and `PC` goes up by 1. -/
def Obligations.StepRunsTheDecodedToken : Prop :=
  ∀ (s : State) (w : TokenWord) (i : Instr),
    s.scan = none → s.status = .busy → waits s.host = true → s.prog[s.pc]? = some w → decodeToken w = .ok i →
    step s = match exec i s with
      | .next u => .next { u with pc := u.pc + 1 }
      | .fault r => .fault r
      | .refused r => .refused r

/-- R90, R27: a `COMPUTE(t)` the core accepts latches `t mod 2^32`, starts at `PROG[0]` and leaves the stack and `TOP` as the
one before it left them (the host list and the reply are the model's port, log 2 and 3). -/
def Obligations.ComputeBegins : Prop :=
  ∀ (s : State) (m : HostMove) (more : List HostMove) (a : Int),
    s.scan = none → s.status = .ready → s.host = m :: more → requestOf m = .compute a →
    step s = .next { s with status := .busy, t := BitVec.ofInt 32 a, pc := 0, host := more, reply := none }

/-- R97, R90: after the last token the result is `S[TOP][7:0]`, `OUT` holds it and `STATUS` is `READY`.  The model's choices in
the exact next state: the result stands in the reply (log 3), `T` and `PC` keep their values (log 9), and a `PC` beyond `N` is
the end too (log 13). -/
def Obligations.ComputeEndsWithTheWindowByte : Prop :=
  ∀ s : State, s.scan = none → s.status = .busy → waits s.host = true → s.prog.length ≤ s.pc →
    step s = .next { s with
      out := BitVec.ofNat 8 ((readEntry s s.top).toNat % 256), status := .ready,
      reply := some (.sample (BitVec.ofNat 8 ((readEntry s s.top).toNat % 256))) }

/-- R90, R96: a `COMPUTE` the core accepts always ends, after exactly `N` token steps between the step that begins it and the
step that ends it, in the state of the transaction.  The model's choices: the two outer steps (log 1), the reply (log 3), and
`T` and `PC` kept after the end (log 9). -/
def Obligations.ComputeRunsAsOneTransaction : Prop :=
  ∀ (s : State) (m : HostMove) (more : List HostMove) (a : Int),
    s.scan = none → s.status = .ready → s.prog.all tokenOk = true → s.host = m :: more → requestOf m = .compute a →
    waits more = true →
    ∃ u, computeTransaction a { s with host := more } = .next u ∧ runFor (s.prog.length + 2) s = .next u ∧
      u.status = .ready ∧ u.pc = s.prog.length ∧ u.out = windowByte u ∧ u.reply = some (.sample u.out) ∧
      u.t = BitVec.ofInt 32 a ∧ u.prog = s.prog

/-- R99: what a `COMPUTE(t)` leaves in `S` and `TOP`, and its result, depend only on `S`, `TOP` and `PROG` before it and on
`t mod 2^32`; so two cores just loaded with one program return the same bytes for the same arguments.  What `T` and `PC` hold
after the end (log 9), and the reply as the result (log 3), are the model's choices. -/
def Obligations.ResultDependsOnlyOnStackProgramAndTime : Prop :=
  (∀ (a b : Int) (s r s' : State),
    s.stack = r.stack → s.top = r.top → s.prog = r.prog → a % 2 ^ 32 = b % 2 ^ 32 →
    computeTransaction a s = .next s' →
    ∃ r', computeTransaction b r = .next r' ∧ s'.stack = r'.stack ∧ s'.top = r'.top ∧ s'.prog = r'.prog ∧
      s'.out = r'.out ∧ s'.t = r'.t ∧ s'.pc = r'.pc ∧ s'.status = r'.status ∧ s'.reply = r'.reply) ∧
  (∀ (prog : List TokenWord) (s r : State) (ts : List Int),
    samples ts (installProgram prog s) = samples ts (installProgram prog r))

/-- R196: the three rows of its table, each a refusal outcome; the state the host goes on from differs only in the host's own
list.  That last clause, the state after a refusal as `withdrawRequest`, is the model's choice (log 3), and so is the list
(log 2). -/
def Obligations.RequestsOutsideTheProtocolAreRefused : Prop :=
  (∀ (s : State) (m : HostMove) (more : List HostMove) (a : Int),
    s.host = m :: more → requestOf m = .compute a → s.status = .unloaded → (s.scan = none ∨ m = .atOnce (.compute a)) →
    step s = .refused .computeUnloaded) ∧
  (∀ (s : State) (more : List HostMove) (a : Int),
    s.host = .atOnce (.compute a) :: more → s.status = .busy → step s = .refused .computeBusy) ∧
  (∀ (s : State) (more : List HostMove) (src : List Byte),
    s.host = .atOnce (.load src) :: more → s.status = .busy → step s = .refused .loadBusy) ∧
  ∀ s : State, withdrawRequest s = { s with host := s.host.tail }

/-- Nothing else is refused: a refusal is one of R196's three, or that of a request that overlaps a `LOAD`, each under its own
name.  That the second `LOAD` is the refused one of two `LOAD`s, always, is the model's reading of 93 K10 (log 11). -/
def Obligations.NothingElseIsRefused : Prop :=
  (∀ (s : State) (r : Refusal), step s = .refused r → ∃ m more, s.host = m :: more ∧
    ((∃ a, requestOf m = .compute a ∧ s.status ≠ .ready ∧ s.status ≠ .busy ∧ r = .computeUnloaded) ∨
     (∃ a, m = .atOnce (.compute a) ∧ s.status = .busy ∧ r = .computeBusy) ∨
     (∃ src, m = .atOnce (.load src) ∧ s.status = .busy ∧ r = .loadBusy) ∨
     (∃ a, m = .atOnce (.compute a) ∧ s.scan ≠ none ∧ s.status ≠ .busy ∧ r = .computeUnloaded) ∨
     (∃ src, m = .atOnce (.load src) ∧ s.scan ≠ none ∧ s.status ≠ .busy ∧ r = .loadWhileLoading))) ∧
  ∀ (s : State) (more : List HostMove) (src : List Byte),
    s.host = .atOnce (.load src) :: more → s.scan ≠ none → s.status ≠ .busy → step s = .refused .loadWhileLoading

/-- R203: with no request the core keeps all state. -/
def Obligations.IdleCoreKeepsItsState : Prop :=
  ∀ s : State, s.scan = none → s.status ≠ .busy → s.host = [] → step s = .next s

/-- R190, R91: in a state that meets the invariant no step faults, and a running `COMPUTE` whose host waits always goes on. -/
def Obligations.NoStepFaults : Prop :=
  ∀ s : State, Inv s → (∀ r, step s ≠ .fault r) ∧ (s.status = .busy → waits s.host = true → ∃ t, step s = .next t)

/-- The invariant is kept by every step. -/
def Obligations.EveryStepKeepsTheInvariant : Prop :=
  ∀ s t : State, Inv s → step s = .next t → Inv t ∧ t.capacity = s.capacity

/-- The invariant holds after power-on. -/
def Obligations.PowerOnMeetsTheInvariant : Prop :=
  Inv State.reset

/-- R220: power-on puts the core in `UNLOADED` with no token program, so that every `COMPUTE` is refused until a `LOAD`
succeeds, whatever the other registers hold. -/
def Obligations.PowerOnIsUnloaded : Prop :=
  State.reset.status = .unloaded ∧ State.reset.prog = [] ∧ State.reset.scan = none ∧
  ∀ (s : State) (m : HostMove) (a : Int), s.status = .unloaded → s.scan = none → requestOf m = .compute a →
    step { s with host := [m] } = .refused .computeUnloaded

/-- R22, R23, R24 over every step: an entry or `TOP` differs after a step only if the step ran a token that stores to it or
moves it, or ended a `LOAD`: a successful one zeroes them (R63, R221), and a failed one discards them (R193), where the model
has a free value (log 5).  That they stand still until a `LOAD` ends is the model's choice (log 14). -/
def Obligations.StackChangesOnlyByTokensAndLoad : Prop :=
  ∀ s t : State, step s = .next t →
    (∀ a, readEntry t a ≠ readEntry s a →
      (∃ w i, s.status = .busy ∧ s.prog[s.pc]? = some w ∧ decodeToken w = .ok i ∧ a ∈ storedEntries i s) ∨
      (s.scan ≠ none ∧ t.scan = none)) ∧
    (t.top ≠ s.top →
      (∃ w i, s.status = .busy ∧ s.prog[s.pc]? = some w ∧ decodeToken w = .ok i ∧ t.top = topAfter i s.top) ∨
      (s.scan ≠ none ∧ t.scan = none))

/-- R25, R51: `PROG` differs after a step only if the step ended a `LOAD`, which installs a program (R63) or discards the
earlier one (R193).  That `PROG` stands still until the `LOAD` ends is the model's choice (log 14), and no step is a second
power-on (log 16). -/
def Obligations.ProgramWrittenOnlyByLoad : Prop :=
  ∀ s t : State, step s = .next t → t.prog ≠ s.prog → s.scan ≠ none ∧ t.scan = none

/-! ## The load-time decoder -/

/-- R69: a header character other than the delimiter is passed over, whatever it is.  The model's choices: one character a step
(log 1), and every register kept in the middle of a `LOAD` (log 9, log 14). -/
def Obligations.HeaderIsDiscardedUnscanned : Prop :=
  ∀ (s : State) (sc : Scan) (c : Byte) (rest : List Byte),
    s.scan = some sc → sc.inBody = false → sc.rest = c :: rest → c ≠ 0x21 → waits s.host = true →
    step s = .next { s with scan := some { sc with rest := rest, pos := sc.pos + 1 } }

/-- R65, R67: a digit right after a digit extends the last token's text and any other digit starts a new token; an opcode or
reserved letter is always a token of its own.  The model's choices: one character a step (log 1), and every register kept in
the middle of a `LOAD` (log 9, log 14). -/
def Obligations.BodyCharactersMakeTokens : Prop :=
  ∀ (s : State) (sc : Scan) (c : Byte) (rest : List Byte),
    s.scan = some sc → sc.inBody = true → sc.rest = c :: rest → waits s.host = true →
    (∀ before text, classOf c = .hex → sc.innum = true → sc.toks = before ++ [text] →
      step s = .next { s with scan := some { sc with
        rest := rest, pos := sc.pos + 1, toks := before ++ [text ++ [c]], innum := true } }) ∧
    (classOf c = .hex → sc.innum = false →
      step s = .next { s with scan := some { sc with
        rest := rest, pos := sc.pos + 1, toks := sc.toks ++ [[c]], innum := true } }) ∧
    (classOf c = .op ∨ classOf c = .rsv →
      step s = .next { s with scan := some { sc with
        rest := rest, pos := sc.pos + 1, toks := sc.toks ++ [[c]], innum := false } })

/-- R68, R193: an `INVALID` body character fails the `LOAD` with the offset of that character: no program, `UNLOADED`, the
error returned; what the stack then holds is a free value (log 5), and the step is one of the model's (log 1).  The cause's
number and `pos` are R191's: "The numbers 1 to 3 and the `pos` field are the spec's own choice." -/
def Obligations.InvalidCharacterFailsTheLoad : Prop :=
  ∀ (s : State) (sc : Scan) (c : Byte) (rest : List Byte),
    s.scan = some sc → sc.inBody = true → sc.rest = c :: rest → classOf c = .invalid → waits s.host = true →
    ∃ t, step s = .next t ∧ t.status = .unloaded ∧ t.prog = [] ∧ t.scan = none ∧
      t.reply = some (.invalidProgram .invalidCharacter sc.pos) ∧ causeCode .invalidCharacter = 1 ∧
      t.host = s.host ∧ t.capacity = s.capacity

/-- R221: what a successful `LOAD` sets, when its scan has reached the end of the source and the capacity suffices (`OUT <- 0`
is there "the spec's own choice"); and the failure when it does not (R191 cause 3, its `pos` field "the spec's own choice").
That the end of the scan is a step of its own is the model's choice (log 1), and the reply its port (log 3). -/
def Obligations.SuccessfulLoadResets : Prop :=
  ∀ (s : State) (sc : Scan), s.scan = some sc → sc.rest = [] → waits s.host = true →
    ((∀ c, s.capacity = some c → sc.toks.length ≤ c) →
      ∃ t, step s = .next t ∧ (∀ a, readEntry t a = 0) ∧ t.top = 0 ∧ t.out = 0 ∧ t.prog = sc.toks.map tokenOfText ∧
        t.status = .ready ∧ t.scan = none ∧ t.reply = some .ok) ∧
    (∀ c, s.capacity = some c → c < sc.toks.length →
      ∃ t, step s = .next t ∧ t.status = .unloaded ∧ t.prog = [] ∧ t.scan = none ∧
        t.reply = some (.invalidProgram .programTooLong sc.pos))

/-- R60: the body of a source is what stands behind its first `!`, every other `!` removed, each character with its own byte
offset; a source with no `!` has an empty body. -/
def Obligations.BodyIsTheSourceLessHeader : Prop :=
  (∀ header lines : List Byte, 0x21 ∉ header →
    (bodyOf (header ++ 0x21 :: lines)).map (·.1) = lines.filter fun c => c != 0x21) ∧
  (∀ src : List Byte, 0x21 ∉ src → bodyOf src = []) ∧
  ∀ (src : List Byte) (c : Byte) (p : Nat), (c, p) ∈ bodyOf src → src[p]? = some c

/-- R192: the error a `LOAD` reports is that of the first `INVALID` character of the body, and only without one that of the
capacity; `MALFORMED_NUMERAL` is never reported.  The positions are R191's: "The numbers 1 to 3 and the `pos` field are the
spec's own choice." -/
def Obligations.LoadReportsTheFirstError : Prop :=
  ∀ (capacity : Option Nat) (src : List Byte),
    (∀ before c p after, bodyOf src = before ++ (c, p) :: after → (∀ x ∈ before, classOf x.1 ≠ .invalid) →
      classOf c = .invalid → loadResult capacity src = .error (.invalidCharacter, p)) ∧
    ((∀ x ∈ bodyOf src, classOf x.1 ≠ .invalid) →
      ∃ prog, loadResult none src = .ok prog ∧
        loadResult capacity src =
          if overCapacity capacity prog.length then .error (.programTooLong, src.length) else .ok prog) ∧
    ∀ p, loadResult capacity src ≠ .error (.malformedNumeral, p)

/-- R63: a `LOAD` the core accepts ends, in the state of the decoder's result on the whole source: its program installed, or
its error reported.  The model's choices: one character a step (log 1), `T` and `PC` kept (log 9), `OUT` kept by a failed
`LOAD` (log 14, R28), and the free values it leaves in the stack (log 5). -/
def Obligations.LoadRunsAsOneTransaction : Prop :=
  ∀ (s : State) (m : HostMove) (more : List HostMove) (src : List Byte),
    s.scan = none → s.status ≠ .busy → s.host = m :: more → requestOf m = .load src → waits more = true →
    match loadResult s.capacity src with
    | .ok prog => runFor (src.length + 2) s = .next (installProgram prog { s with host := more })
    | .error (cause, pos) => runFor (pos + 2) s = .next (failLoad cause pos { s with host := more })

/-- R71, R72: on a text without `!` the decoder's scan and the reading form by form agree: the same tokens in the same order,
or both reject. -/
def Obligations.ScanAgreesWithReadingFormByForm : Prop :=
  ∀ text : List Byte, 0x21 ∉ text →
    (∀ toks, scanBody text.zipIdx [] false = .ok toks →
      ∃ is, decodeTokens text.length text = .ok is ∧ toks.map tokenOfText = is.map tokenWord) ∧
    (∀ p, scanBody text.zipIdx [] false = .error p → decodeTokens text.length text = .error .invalidCharacter)

/-! ## The other registers, over every step -/

/-- R26, R27, R28, R29 over every step: `OUT` changes only at the end of a `COMPUTE` or of a successful `LOAD`, `T` only where
a `COMPUTE` begins, `PC` there and by 1 at a token, and `STATUS` only along the moves of R29, `UNLOADED` from a `LOAD`'s
beginning (R63).  That `T` and `PC` otherwise keep their values, and `OUT` through a failed `LOAD`, are the model's choices
(log 9, log 14); no step is a second power-on (log 16).  The invariant is asked only for `STATUS`. -/
def Obligations.RegistersMoveOnlyAtTheirEvents : Prop :=
  ∀ s t : State, step s = .next t →
    (t.out ≠ s.out →
      (s.status = .busy ∧ s.prog.length ≤ s.pc ∧ t.status = .ready ∧ t.out = windowByte s) ∨
      (s.scan ≠ none ∧ t.scan = none ∧ t.status = .ready ∧ t.out = 0)) ∧
    (t.t ≠ s.t → s.status = .ready ∧ t.status = .busy ∧
      ∃ m more a, s.host = m :: more ∧ requestOf m = .compute a ∧ t.t = BitVec.ofInt 32 a) ∧
    (t.pc ≠ s.pc →
      (s.status = .busy ∧ s.pc < s.prog.length ∧ t.pc = s.pc + 1) ∨
      (s.status = .ready ∧ t.status = .busy ∧ t.pc = 0 ∧ ∃ m more a, s.host = m :: more ∧ requestOf m = .compute a)) ∧
    (Inv s → t.status ≠ s.status →
      (s.status = .ready ∧ t.status = .busy ∧ ∃ m more a, s.host = m :: more ∧ requestOf m = .compute a) ∨
      (s.status = .busy ∧ t.status = .ready ∧ s.prog.length ≤ s.pc) ∨
      (s.status = .ready ∧ t.status = .unloaded ∧
        ∃ m more src, s.host = m :: more ∧ requestOf m = .load src ∧ t.scan = some (startScan src)) ∨
      (s.status = .unloaded ∧ t.status = .ready ∧ s.scan ≠ none ∧ t.scan = none))
end

