-- ==== Sys2Proof/Laws/Decode.lean ====
section
/-! SUPPORT. Small lemmas of the encodings: digits, numerals, token words. -/

namespace Sys2Proof

/-- Bit `k` of a literal's token word: the kind above the value (R75). -/
theorem litTokenWord_bit (v : Word) (k : Nat) :
    (litTokenWord v).getLsbD k = if k < 32 then v.getLsbD k else (1#1).getLsbD (k - 32) := by
  unfold litTokenWord
  rw [BitVec.getLsbD_cast, BitVec.getLsbD_append]

@[simp] theorem litTokenWord_kind (v : Word) : (litTokenWord v).getLsbD 32 = true := by
  rw [litTokenWord_bit]; simp

@[simp] theorem litTokenWord_value (v : Word) : (litTokenWord v).extractLsb' 0 32 = v := by
  apply BitVec.eq_of_getLsbD_eq
  intro k hk
  simp [litTokenWord_bit, hk]

/-- The dispatcher reads a literal's value back (R75, R91). -/
@[simp] theorem decodeToken_litTokenWord (v : Word) : decodeToken (litTokenWord v) = .ok (.lit v) := by
  simp [decodeToken]

/-- A digit's character is a digit and has its value (R62). -/
theorem digitChar_spec (n : Nat) (h : n < 16) : isHexDigit (digitChar n) = true ∧ digitValue (digitChar n) = n := by
  have : ∀ m : Fin 16, isHexDigit (digitChar m) = true ∧ digitValue (digitChar m) = m := by decide
  exact this ⟨n, h⟩

@[simp] theorem isHexDigit_digitChar (a : Nat) : isHexDigit (digitChar (a % 16)) = true :=
  (digitChar_spec _ (Nat.mod_lt _ (by decide))).1

@[simp] theorem digitValue_digitChar (a : Nat) : digitValue (digitChar (a % 16)) = a % 16 :=
  (digitChar_spec _ (Nat.mod_lt _ (by decide))).2

theorem hexDigits_all (v : Word) : (hexDigits v).all isHexDigit = true := by
  simp [hexDigits]

/-- The eight digits of a word have its value (R70). -/
theorem hexValue_hexDigits (v : Word) : hexValue (hexDigits v) = v.toNat := by
  have := v.isLt
  simp only [hexValue, hexDigits, List.map, List.foldl, digitValue_digitChar]
  omega

@[simp] theorem numeralWord_hexDigits (v : Word) : numeralWord (hexDigits v) = v := by
  simp [numeralWord, hexValue_hexDigits]

@[simp] theorem tokenWord_lit (v : Word) : tokenWord (.lit v) = litTokenWord v := by
  have h := numeralWord_hexDigits v
  unfold hexDigits at h
  simp only [List.map] at h
  simp only [tokenWord, encode, hexDigits, List.map, tokenOfText, isHexDigit_digitChar, if_true, h]

theorem decodeToken_litWord (v : Word) :
    decodeToken (tokenWord (.lit v)) = if (Instr.lit v).wf then .ok (.lit v) else .error .notAToken := by
  simp [Instr.wf]

end Sys2Proof
end

