-- ==== Sys2Proof/Laws/State.lean ====
section
/-! SUPPORT. What each named update of State does to each field: one lemma per field per update. -/

namespace Sys2Proof.Machine

variable (s : State)

@[simp] theorem State.withStack_stack (x : Stack) : (s.withStack x).stack = x := rfl
@[simp] theorem State.withStack_top (x : Stack) : (s.withStack x).top = s.top := rfl
@[simp] theorem State.withStack_prog (x : Stack) : (s.withStack x).prog = s.prog := rfl
@[simp] theorem State.withStack_pc (x : Stack) : (s.withStack x).pc = s.pc := rfl
@[simp] theorem State.withStack_t (x : Stack) : (s.withStack x).t = s.t := rfl
@[simp] theorem State.withStack_out (x : Stack) : (s.withStack x).out = s.out := rfl
@[simp] theorem State.withStack_status (x : Stack) : (s.withStack x).status = s.status := rfl
@[simp] theorem State.withStack_scan (x : Stack) : (s.withStack x).scan = s.scan := rfl
@[simp] theorem State.withStack_capacity (x : Stack) : (s.withStack x).capacity = s.capacity := rfl
@[simp] theorem State.withStack_host (x : Stack) : (s.withStack x).host = s.host := rfl
@[simp] theorem State.withStack_reply (x : Stack) : (s.withStack x).reply = s.reply := rfl
@[simp] theorem State.withStack_free (x : Stack) : (s.withStack x).free = s.free := rfl

@[simp] theorem State.withTop_stack (x : Index) : (s.withTop x).stack = s.stack := rfl
@[simp] theorem State.withTop_top (x : Index) : (s.withTop x).top = x := rfl
@[simp] theorem State.withTop_prog (x : Index) : (s.withTop x).prog = s.prog := rfl
@[simp] theorem State.withTop_pc (x : Index) : (s.withTop x).pc = s.pc := rfl
@[simp] theorem State.withTop_t (x : Index) : (s.withTop x).t = s.t := rfl
@[simp] theorem State.withTop_out (x : Index) : (s.withTop x).out = s.out := rfl
@[simp] theorem State.withTop_status (x : Index) : (s.withTop x).status = s.status := rfl
@[simp] theorem State.withTop_scan (x : Index) : (s.withTop x).scan = s.scan := rfl
@[simp] theorem State.withTop_capacity (x : Index) : (s.withTop x).capacity = s.capacity := rfl
@[simp] theorem State.withTop_host (x : Index) : (s.withTop x).host = s.host := rfl
@[simp] theorem State.withTop_reply (x : Index) : (s.withTop x).reply = s.reply := rfl
@[simp] theorem State.withTop_free (x : Index) : (s.withTop x).free = s.free := rfl

@[simp] theorem State.withPc_stack (x : Nat) : (s.withPc x).stack = s.stack := rfl
@[simp] theorem State.withPc_top (x : Nat) : (s.withPc x).top = s.top := rfl
@[simp] theorem State.withPc_prog (x : Nat) : (s.withPc x).prog = s.prog := rfl
@[simp] theorem State.withPc_pc (x : Nat) : (s.withPc x).pc = x := rfl
@[simp] theorem State.withPc_t (x : Nat) : (s.withPc x).t = s.t := rfl
@[simp] theorem State.withPc_out (x : Nat) : (s.withPc x).out = s.out := rfl
@[simp] theorem State.withPc_status (x : Nat) : (s.withPc x).status = s.status := rfl
@[simp] theorem State.withPc_scan (x : Nat) : (s.withPc x).scan = s.scan := rfl
@[simp] theorem State.withPc_capacity (x : Nat) : (s.withPc x).capacity = s.capacity := rfl
@[simp] theorem State.withPc_host (x : Nat) : (s.withPc x).host = s.host := rfl
@[simp] theorem State.withPc_reply (x : Nat) : (s.withPc x).reply = s.reply := rfl
@[simp] theorem State.withPc_free (x : Nat) : (s.withPc x).free = s.free := rfl

@[simp] theorem State.withScan_stack (x : Option Scan) : (s.withScan x).stack = s.stack := rfl
@[simp] theorem State.withScan_top (x : Option Scan) : (s.withScan x).top = s.top := rfl
@[simp] theorem State.withScan_prog (x : Option Scan) : (s.withScan x).prog = s.prog := rfl
@[simp] theorem State.withScan_pc (x : Option Scan) : (s.withScan x).pc = s.pc := rfl
@[simp] theorem State.withScan_t (x : Option Scan) : (s.withScan x).t = s.t := rfl
@[simp] theorem State.withScan_out (x : Option Scan) : (s.withScan x).out = s.out := rfl
@[simp] theorem State.withScan_status (x : Option Scan) : (s.withScan x).status = s.status := rfl
@[simp] theorem State.withScan_scan (x : Option Scan) : (s.withScan x).scan = x := rfl
@[simp] theorem State.withScan_capacity (x : Option Scan) : (s.withScan x).capacity = s.capacity := rfl
@[simp] theorem State.withScan_host (x : Option Scan) : (s.withScan x).host = s.host := rfl
@[simp] theorem State.withScan_reply (x : Option Scan) : (s.withScan x).reply = s.reply := rfl
@[simp] theorem State.withScan_free (x : Option Scan) : (s.withScan x).free = s.free := rfl

end Sys2Proof.Machine
end

