-- ==== Sys2Proof/Laws/Stack.lean ====
section
/-! SUPPORT. Reads and writes of the stack file, and the pointer arithmetic. -/

namespace Sys2Proof.Machine

@[simp] theorem readEntry_withTop (s : State) (x i : Index) : readEntry (s.withTop x) i = readEntry s i := rfl

@[simp] theorem readEntry_withScan (s : State) (x : Option Scan) (i : Index) :
    readEntry (s.withScan x) i = readEntry s i := rfl

@[simp] theorem readEntry_withPc (s : State) (x : Nat) (i : Index) : readEntry (s.withPc x) i = readEntry s i := rfl

/-- A read after a write: the value written at the same index, the old entry anywhere else. -/
theorem readEntry_writeEntry (s : State) (i j : Index) (v : Word) :
    readEntry (writeEntry i v s) j = if j = i then v else readEntry s j := by
  unfold readEntry writeEntry State.withStack
  rw [Vector.getElem_set]
  by_cases h : j = i
  · subst h; simp
  · have hne : i.toNat ≠ j.toNat := fun e => h (BitVec.eq_of_toNat_eq e.symm)
    simp [h, hne]

@[simp] theorem readEntry_writeEntry_same (s : State) (i : Index) (v : Word) :
    readEntry (writeEntry i v s) i = v := by simp [readEntry_writeEntry]

theorem readEntry_writeEntry_other {s : State} {i j : Index} {v : Word} (h : j ≠ i) :
    readEntry (writeEntry i v s) j = readEntry s j := by simp [readEntry_writeEntry, h]

/-- Two stack files that read alike at every index are one. -/
theorem stack_ext {s t : State} (h : ∀ i, readEntry s i = readEntry t i) : s.stack = t.stack := by
  apply Vector.ext
  intro k hk
  have := h (BitVec.ofNat 8 k)
  simpa [readEntry, Nat.mod_eq_of_lt hk] using this

/-- Writing an entry's own value changes nothing. -/
theorem writeEntry_self (s : State) (i : Index) : writeEntry i (readEntry s i) s = s := by
  have hs : (writeEntry i (readEntry s i) s).stack = s.stack := by
    apply stack_ext
    intro j
    rw [readEntry_writeEntry]
    split <;> simp_all
  cases s
  simpa [writeEntry, State.withStack] using hs

@[simp] theorem writeEntry_top (s : State) (i : Index) (v : Word) : (writeEntry i v s).top = s.top := rfl
@[simp] theorem writeEntry_prog (s : State) (i : Index) (v : Word) : (writeEntry i v s).prog = s.prog := rfl
@[simp] theorem writeEntry_pc (s : State) (i : Index) (v : Word) : (writeEntry i v s).pc = s.pc := rfl
@[simp] theorem writeEntry_t (s : State) (i : Index) (v : Word) : (writeEntry i v s).t = s.t := rfl
@[simp] theorem writeEntry_out (s : State) (i : Index) (v : Word) : (writeEntry i v s).out = s.out := rfl
@[simp] theorem writeEntry_status (s : State) (i : Index) (v : Word) : (writeEntry i v s).status = s.status := rfl
@[simp] theorem writeEntry_scan (s : State) (i : Index) (v : Word) : (writeEntry i v s).scan = s.scan := rfl
@[simp] theorem writeEntry_capacity (s : State) (i : Index) (v : Word) :
    (writeEntry i v s).capacity = s.capacity := rfl
@[simp] theorem writeEntry_host (s : State) (i : Index) (v : Word) : (writeEntry i v s).host = s.host := rfl
@[simp] theorem writeEntry_reply (s : State) (i : Index) (v : Word) : (writeEntry i v s).reply = s.reply := rfl
@[simp] theorem writeEntry_free (s : State) (i : Index) (v : Word) : (writeEntry i v s).free = s.free := rfl

@[simp] theorem inc8_dec8 (x : Index) : inc8 (dec8 x) = x := by simp [inc8, dec8]

@[simp] theorem dec8_inc8 (x : Index) : dec8 (inc8 x) = x := by simp [inc8, dec8]

theorem dec8_ne (x : Index) : dec8 x ≠ x := by revert x; decide

theorem inc8_ne (x : Index) : inc8 x ≠ x := by revert x; decide

/-- `inc8(x) = (x + 1) mod 256` (R9). -/
theorem inc8_toNat (x : Index) : (inc8 x).toNat = (x.toNat + 1) % 256 := by simp [inc8, BitVec.toNat_add]

/-- `dec8(x) = (x + 255) mod 256` (R9). -/
theorem dec8_toNat (x : Index) : (dec8 x).toNat = (x.toNat + 255) % 256 := by
  simp [dec8, BitVec.toNat_sub]; omega

end Sys2Proof.Machine
end

