-- ==== Sys2Proof/Laws/Ops.lean ====
section
/-! SUPPORT. One lemma for each shared operation: everything it does. -/

namespace Sys2Proof.Machine

theorem push_eq (v : Int) (s : State) :
    push v s = writeEntry (inc8 s.top) (BitVec.ofInt 32 v) (s.withTop (inc8 s.top)) := rfl

theorem pushWord_eq (v : Word) (s : State) :
    pushWord v s = writeEntry (inc8 s.top) v (s.withTop (inc8 s.top)) := by
  simp [pushWord, push_eq]

@[simp] theorem pop_fst (s : State) : (pop s).1 = readEntry s s.top := rfl

@[simp] theorem pop_snd (s : State) : (pop s).2 = s.withTop (dec8 s.top) := rfl

/-- The net effect of a two-operand operation (R94). -/
theorem binary_eq (f : Word → Word → Int) (s : State) :
    binary f s = .next (writeEntry (dec8 s.top)
      (BitVec.ofInt 32 (f (secondOperand s) (firstOperand s))) (s.withTop (dec8 s.top))) := by
  simp [binary, push_eq, State.withTop, firstOperand, secondOperand, readEntry]

/-- The net effect of PUT under a bias (R130). -/
theorem putWith_eq (b : Nat) (s : State) :
    putWith b s =
      .next (writeEntry (ind b s) (BitVec.setWidth 32 (inc8 s.top)) (s.withTop (dec8 s.top))) := rfl

/-- A failed `LOAD` leaves no program, `UNLOADED`, and the error as the reply (R193). -/
theorem failLoad_reports (c : Cause) (p : Nat) (s : State) :
    (failLoad c p s).prog = [] ∧ (failLoad c p s).status = .unloaded ∧ (failLoad c p s).scan = none ∧
      (failLoad c p s).reply = some (.invalidProgram c p) := ⟨rfl, rfl, rfl, rfl⟩

end Sys2Proof.Machine
end

