-- ==== Sys2Proof/Laws/Exec.lean ====
section
/-! SUPPORT. One lemma for each meaning that stores: the state it leaves, as writes of entries and a move of `TOP`. -/

namespace Sys2Proof.Machine

variable (s : State)

/-- What a two-operand operation with the exact result `r` leaves (R94). -/
def afterBinary (r : Int) : Host.Outcome State Fault Refusal :=
  .next (writeEntry (dec8 s.top) (BitVec.ofInt 32 r) (s.withTop (dec8 s.top)))

theorem exec_lit (v : Word) :
    exec (.lit v) s = .next (writeEntry (inc8 s.top) v (s.withTop (inc8 s.top))) :=
  congrArg _ (pushWord_eq v s)

theorem exec_time : exec .time s = .next (writeEntry (inc8 s.top) s.t (s.withTop (inc8 s.top))) :=
  congrArg _ (pushWord_eq s.t s)

theorem exec_drop : exec .drop s = .next (s.withTop (dec8 s.top)) := rfl

/-- DUP rewrites the old top with its own value, so only the new top changes (R113). -/
theorem exec_dup :
    exec .dup s = .next (writeEntry (inc8 s.top) (readEntry s s.top) (s.withTop (inc8 s.top))) := by
  have self : writeEntry s.top (readEntry s s.top) ((s.withTop (dec8 s.top)).withTop s.top) = s := writeEntry_self s s.top
  change Host.Outcome.next _ = _
  simp only [pushWord_eq, pop_fst, pop_snd, State.withTop_top, inc8_dec8, self]

theorem exec_swap :
    exec .swap s =
      .next (writeEntry s.top (readEntry s (dec8 s.top)) (writeEntry (dec8 s.top) (readEntry s s.top) s)) := by
  change Host.Outcome.next _ = _
  simp only [pushWord_eq, pop_fst, pop_snd, State.withTop_top, inc8_dec8, writeEntry_top, readEntry_withTop]
  rfl

theorem exec_put :
    exec .put s = .next (writeEntry (ind Config.putOffsetBias s) (BitVec.setWidth 32 (inc8 s.top))
      (s.withTop (dec8 s.top))) := putWith_eq _ s

theorem exec_pick : exec .pick s = .next (writeEntry s.top (readEntry s (ind 1 s)) s) := by
  change Host.Outcome.next _ = _
  simp only [pushWord_eq, pop_snd, State.withTop_top, inc8_dec8]
  rfl

theorem exec_not :
    exec .not s = .next (writeEntry s.top (BitVec.ofInt 32 (0xFFFFFFFF - ((readEntry s s.top).toNat : Int))) s) := by
  change Host.Outcome.next _ = _
  simp only [push_eq, pop_fst, pop_snd, State.withTop_top, inc8_dec8]
  rfl

theorem exec_mul : exec .mul s = afterBinary s ((firstOperand s).toNat * (secondOperand s).toNat) := by rw [exec, execMul, binary_eq]; rfl

theorem exec_div : exec .div s = afterBinary s
    (if firstOperand s = 0 then 0 else (((secondOperand s).toNat / (firstOperand s).toNat : Nat) : Int)) := by rw [exec, execDiv, binary_eq]; rfl

theorem exec_add : exec .add s = afterBinary s ((secondOperand s).toNat + (firstOperand s).toNat) := by rw [exec, execAdd, binary_eq]; rfl

theorem exec_sub : exec .sub s = afterBinary s ((secondOperand s).toNat - (firstOperand s).toNat) := by rw [exec, execSub, binary_eq]; rfl

theorem exec_mod : exec .mod s = afterBinary s
    (if firstOperand s = 0 then 0 else (((secondOperand s).toNat % (firstOperand s).toNat : Nat) : Int)) := by rw [exec, execMod, binary_eq]; rfl

theorem exec_lshift : exec .lshift s = afterBinary s
    (if (firstOperand s).toNat < 32 then (((secondOperand s).toNat * 2 ^ (firstOperand s).toNat : Nat) : Int) else 0) := by rw [exec, execLshift, binary_eq]; rfl

theorem exec_rshift : exec .rshift s = afterBinary s
    (if (firstOperand s).toNat < 32 then (((secondOperand s).toNat / 2 ^ (firstOperand s).toNat : Nat) : Int) else 0) := by rw [exec, execRshift, binary_eq]; rfl

theorem exec_and : exec .and s = afterBinary s (secondOperand s &&& firstOperand s).toNat := by rw [exec, execAnd, binary_eq]; rfl

theorem exec_or : exec .or s = afterBinary s (secondOperand s ||| firstOperand s).toNat := by rw [exec, execOr, binary_eq]; rfl

theorem exec_xor : exec .xor s = afterBinary s (secondOperand s ^^^ firstOperand s).toNat := by rw [exec, execXor, binary_eq]; rfl

theorem exec_lt : exec .lt s = afterBinary s
    (truthValue (decide ((secondOperand s).toNat < (firstOperand s).toNat))).toNat := by rw [exec, execLt, binary_eq]; rfl

theorem exec_gt : exec .gt s = afterBinary s
    (truthValue (decide ((secondOperand s).toNat > (firstOperand s).toNat))).toNat := by rw [exec, execGt, binary_eq]; rfl

theorem exec_eq : exec .eq s = afterBinary s (truthValue (decide (secondOperand s = firstOperand s))).toNat := by rw [exec, execEq, binary_eq]; rfl

theorem exec_fill : exec .fill s = .next (s.withScan (s.scan.map scanFiller)) := rfl

theorem exec_delim : exec .delim s = .next (s.withScan (s.scan.map scanDelimiter)) := rfl

end Sys2Proof.Machine
end

