-- ==== Sys2Proof/Laws/PerInstr.lean ====
section
/-! SUPPORT. Per instruction: the token word of a token decodes back to it (R75, R91); the filler and the delimiter
have no token word the dispatcher would accept (R66, R60). -/

namespace Sys2Proof.Laws.TokenWord

open Sys2Proof

/-- A token's word decodes to the token; the word of a form that is no token is rejected. -/
def Statement (i : Instr) : Prop :=
  decodeToken (tokenWord i) = if i.wf then .ok i else .error .notAToken

theorem lit (v : Word) : Statement (.lit v) := decodeToken_litWord v

theorem time : Statement .time := by unfold Statement; decide

theorem put : Statement .put := by unfold Statement; decide

theorem drop : Statement .drop := by unfold Statement; decide

theorem mul : Statement .mul := by unfold Statement; decide

theorem div : Statement .div := by unfold Statement; decide

theorem add : Statement .add := by unfold Statement; decide

theorem sub : Statement .sub := by unfold Statement; decide

theorem mod : Statement .mod := by unfold Statement; decide

theorem lshift : Statement .lshift := by unfold Statement; decide

theorem rshift : Statement .rshift := by unfold Statement; decide

theorem and : Statement .and := by unfold Statement; decide

theorem or : Statement .or := by unfold Statement; decide

theorem xor : Statement .xor := by unfold Statement; decide

theorem not : Statement .not := by unfold Statement; decide

theorem dup : Statement .dup := by unfold Statement; decide

theorem pick : Statement .pick := by unfold Statement; decide

theorem swap : Statement .swap := by unfold Statement; decide

theorem lt : Statement .lt := by unfold Statement; decide

theorem gt : Statement .gt := by unfold Statement; decide

theorem eq : Statement .eq := by unfold Statement; decide

theorem rsvG : Statement .rsvG := by unfold Statement; decide

theorem rsvH : Statement .rsvH := by unfold Statement; decide

theorem rsvI : Statement .rsvI := by unfold Statement; decide

theorem rsvJ : Statement .rsvJ := by unfold Statement; decide

theorem rsvK : Statement .rsvK := by unfold Statement; decide

theorem rsvL : Statement .rsvL := by unfold Statement; decide

theorem rsvM : Statement .rsvM := by unfold Statement; decide

theorem rsvN : Statement .rsvN := by unfold Statement; decide

theorem rsvO : Statement .rsvO := by unfold Statement; decide

theorem rsvP : Statement .rsvP := by unfold Statement; decide

theorem rsvQ : Statement .rsvQ := by unfold Statement; decide

theorem rsvR : Statement .rsvR := by unfold Statement; decide

theorem rsvS : Statement .rsvS := by unfold Statement; decide

theorem rsvT : Statement .rsvT := by unfold Statement; decide

theorem rsvU : Statement .rsvU := by unfold Statement; decide

theorem rsvV : Statement .rsvV := by unfold Statement; decide

theorem rsvW : Statement .rsvW := by unfold Statement; decide

theorem rsvX : Statement .rsvX := by unfold Statement; decide

theorem rsvY : Statement .rsvY := by unfold Statement; decide

theorem rsvZ : Statement .rsvZ := by unfold Statement; decide

theorem rsvLowI : Statement .rsvLowI := by unfold Statement; decide

theorem rsvLowV : Statement .rsvLowV := by unfold Statement; decide

theorem rsvLowW : Statement .rsvLowW := by unfold Statement; decide

theorem rsvLowX : Statement .rsvLowX := by unfold Statement; decide

theorem rsvLowY : Statement .rsvLowY := by unfold Statement; decide

theorem rsvLowZ : Statement .rsvLowZ := by unfold Statement; decide

theorem fill : Statement .fill := by unfold Statement; decide

theorem delim : Statement .delim := by unfold Statement; decide

end Sys2Proof.Laws.TokenWord
end

