-- ==== Sys2Proof/Laws/Step.lean ====
section
/-! SUPPORT. What a step can do, said once, and how runs unfold. -/

namespace Sys2Proof.Machine

@[simp] theorem runFor_zero (s : State) : runFor 0 s = .next s := rfl

theorem runFor_succ (k : Nat) (s : State) :
    runFor (k + 1) s = match step s with
      | .next t => runFor k t
      | .fault r => .fault r
      | .refused r => .refused r := rfl

theorem runFor_succ_of_next {k : Nat} {s t : State} (h : step s = .next t) : runFor (k + 1) s = runFor k t := by
  rw [runFor_succ, h]

theorem coreRun_of_next {M : Host.Core} {k : Nat} {s t : M.State} (h : M.step s = .next t) :
    M.run (k + 1) s = M.run k t := by rw [Host.Core.run, h]

theorem coreRun_of_fault {M : Host.Core} {k : Nat} {s : M.State} {r : M.Fault} (h : M.step s = .fault r) :
    M.run (k + 1) s = .fault r := by rw [Host.Core.run, h]

theorem coreRun_of_refused {M : Host.Core} {k : Nat} {s : M.State} {r : M.Refusal} (h : M.step s = .refused r) :
    M.run (k + 1) s = .refused r := by rw [Host.Core.run, h]

/-- The run is the host's run of the core. -/
theorem runFor_eq_run (k : Nat) (s : State) : runFor k s = Sys2Proof.core.run k s := by
  induction k generalizing s with
  | zero => rfl
  | succ k ih =>
    cases h : step s with
    | next t => exact (runFor_succ_of_next h).trans ((ih t).trans (coreRun_of_next (M := Sys2Proof.core) h).symm)
    | fault r =>
      have hr : runFor (k + 1) s = .fault r := by rw [runFor_succ, h]
      exact hr.trans (coreRun_of_fault (M := Sys2Proof.core) h).symm
    | refused r =>
      have hr : runFor (k + 1) s = .refused r := by rw [runFor_succ, h]
      exact hr.trans (coreRun_of_refused (M := Sys2Proof.core) h).symm

/-- Two runs one after the other are one run. -/
theorem runFor_add {j k : Nat} {s t : State} (h : runFor j s = .next t) : runFor (j + k) s = runFor k t := by
  induction j generalizing s with
  | zero => rw [runFor_zero] at h; cases h; rw [Nat.zero_add]
  | succ j ih =>
    rw [runFor_succ] at h
    rw [Nat.add_right_comm, runFor_succ]
    split at h
    · exact ih h
    · cases h
    · cases h

@[simp] theorem passChar_rest (rest : List Byte) (sc : Scan) : (passChar rest sc).rest = rest := rfl
@[simp] theorem passChar_pos (rest : List Byte) (sc : Scan) : (passChar rest sc).pos = sc.pos + 1 := rfl
@[simp] theorem passChar_inBody (rest : List Byte) (sc : Scan) : (passChar rest sc).inBody = sc.inBody := rfl
@[simp] theorem passChar_toks (rest : List Byte) (sc : Scan) : (passChar rest sc).toks = sc.toks := rfl
@[simp] theorem passChar_innum (rest : List Byte) (sc : Scan) : (passChar rest sc).innum = sc.innum := rfl

/-- A token that runs leaves the next state of its instruction, `PC` one further. -/
theorem runToken_next {w : TokenWord} {s t : State} (h : runToken w s = .next t) :
    ∃ i u, decodeToken w = .ok i ∧ exec i s = .next u ∧ t = u.withPc (u.pc + 1) := by
  unfold runToken at h
  split at h
  · next i hi =>
    cases he : exec i s with
    | next u => rw [he] at h; cases h; exact ⟨i, u, hi, he, rfl⟩
    | fault r => rw [he] at h; cases h
    | refused r => rw [he] at h; cases h
  · cases h

/-- Everything a step that goes on can do. -/
inductive StepCase (s t : State) : Prop where
  /-- The end of a `LOAD`'s scan. -/
  | loadEnds (sc : Scan) (hs : s.scan = some sc) (hr : sc.rest = []) (ht : t = finishLoad sc s)
  /-- One character of a `LOAD`. -/
  | loads (sc : Scan) (c : Byte) (rest : List Byte) (hs : s.scan = some sc) (hr : sc.rest = c :: rest)
      (ht : loadChar c rest sc s = .next t)
  /-- One token of a `COMPUTE`. -/
  | runs (i : Instr) (w : TokenWord) (u : State) (hs : s.scan = none) (hb : s.status = .busy)
      (hw : s.prog[s.pc]? = some w) (hi : decodeToken w = .ok i) (he : exec i s = .next u)
      (ht : t = u.withPc (u.pc + 1))
  /-- The end of a `COMPUTE`. -/
  | computeEnds (hs : s.scan = none) (hb : s.status = .busy) (hw : s.prog[s.pc]? = none) (ht : t = finishCompute s)
  /-- No request. -/
  | idles (hs : s.scan = none) (hb : s.status ≠ .busy) (hh : s.host = []) (ht : t = s)
  /-- A `LOAD` is accepted. -/
  | loadBegins (m : HostMove) (more : List HostMove) (src : List Byte) (hs : s.scan = none) (hb : s.status ≠ .busy)
      (hh : s.host = m :: more) (hm : requestOf m = .load src) (ht : t = beginLoad src { s with host := more })
  /-- A `COMPUTE` is accepted. -/
  | computeBegins (m : HostMove) (more : List HostMove) (a : Int) (hs : s.scan = none) (hb : s.status = .ready)
      (hh : s.host = m :: more) (hm : requestOf m = .compute a) (ht : t = beginCompute a { s with host := more })

/-- The inversion of a step. -/
theorem step_cases {s t : State} (h : step s = .next t) : StepCase s t := by
  unfold step cycle at h
  split at h
  · cases h
  split at h
  · next sc hs =>
    unfold stepLoad at h
    split at h
    · next hr => cases h; exact .loadEnds sc hs hr rfl
    · next c rest hr => exact .loads sc c rest hs hr h
  next hs =>
  split at h
  · next hb =>
    unfold stepCompute at h
    split at h
    · next w hw =>
      obtain ⟨i, u, hi, he, ht⟩ := runToken_next h
      exact .runs i w u hs hb hw hi he ht
    · next hw => cases h; exact .computeEnds hs hb hw rfl
  next hb =>
  unfold serveHost at h
  split at h
  · next hh => cases h; exact .idles hs hb hh rfl
  next m more hh =>
  split at h
  · next src hm => cases h; exact .loadBegins m more src hs hb hh hm rfl
  next a hm =>
  split at h
  · next hr => cases h; exact .computeBegins m more a hs hr hh hm rfl
  · cases h

end Sys2Proof.Machine
end

