-- ==== Sys2Proof/Tests/Slice0.lean ====
section
/-! SUPPORT. Small tests of the model, their expected results from the spec's own vectors (95_test_vectors), tables and
examples, and a witness for the hypotheses of each obligation. -/

namespace Sys2Proof.Tests

open Sys2Proof Sys2Proof.Machine

/-! ## Helpers -/

/-- A state with `TOP = p` and some entries of the stack file. -/
def start (p : Index) (entries : List (Index × Word)) : State :=
  { entries.foldl (fun s e => writeEntry e.1 e.2 s) State.reset with top := p }

/-- The start of 95_test_vectors L2.5: `TOP = 2`, `S[1] = v2`, `S[2] = v1`. -/
def pair (v2 v1 : Word) : State := start 2 [(1, v2), (2, v1)]

/-- A next state with `TOP = p` that holds these entries. -/
def leaves (o : Host.Outcome State Fault Refusal) (p : Index) (entries : List (Index × Word)) : Bool :=
  match o with
  | .next t => t.top == p && entries.all fun e => readEntry t e.1 == e.2
  | _ => false

/-- The end of 95_test_vectors L2.5: `TOP = 1`, `S[1] = r`, `S[2] = v1`. -/
def gives (i : Instr) (v2 v1 r : Word) : Bool := leaves (exec i (pair v2 v1)) 1 [(1, r), (2, v1)]

/-- A next state that meets a test. -/
def next? (o : Host.Outcome State Fault Refusal) (p : State → Bool) : Bool :=
  match o with
  | .next t => p t
  | _ => false

/-- The refusal a step ends in, if any. -/
def refusal? (o : Host.Outcome State Fault Refusal) : Option Refusal :=
  match o with
  | .refused r => some r
  | _ => none

/-- A `LOAD` in progress over a body. -/
def loading (rest : List Byte) (toks : List (List Byte)) (innum : Bool) : State :=
  { State.reset with scan := some { rest := rest, pos := 2, inBody := true, toks := toks, innum := innum } }

/-- A core loaded with a program. -/
def loaded (prog : List TokenWord) (moves : List HostMove) : State :=
  { installProgram prog State.reset with host := moves }

/-- A core in a `COMPUTE`. -/
def running (prog : List TokenWord) (moves : List HostMove) : State :=
  { loaded prog moves with status := .busy, reply := none }

/-! ## Well-formedness: the forms that are no token are refused (R71) -/

theorem test_wf_fill : Instr.wf .fill = false := by decide
theorem test_wf_delim : Instr.wf .delim = false := by decide
theorem test_wf_token : Instr.wf (.lit 0) = true ∧ Instr.wf .rsvG = true := by decide
theorem test_token_word_of_no_token :
    tokenOk 0x2E = false ∧ tokenOk 0x21 = false ∧ tokenOk 0x161 = false ∧ tokenOk 0x30 = false ∧ tokenOk 0x61 = true := by decide
theorem test_scan_ill_formed :
    scanOk { rest := [], pos := 0, inBody := true, toks := [[0x61, 0x62]], innum := false } = false ∧
    scanOk { rest := [], pos := 0, inBody := true, toks := [[0x61]], innum := true } = false ∧
    scanOk { rest := [], pos := 0, inBody := false, toks := [[0x61]], innum := false } = false := by decide

/-! ## Decoding: every row's word, written out bit by bit (opcode_table.json "encoding") -/

/-- The words decode to the instructions beside them. -/
def decodes (rows : List (Nat × Instr)) : Bool := rows.all fun r => decodeTableWord 8 r.1 == some r.2

theorem test_decode_stack_moves : decodes
    [(0b01100001, .time), (0b01100011, .drop), (0b01110000, .dup), (0b01110010, .swap), (0b00110000, .lit 0),
     (0b00111001, .lit 9), (0b01000001, .lit 10), (0b01000110, .lit 15)] = true := by decide
theorem test_decode_indirect : decodes [(0b01100010, .put), (0b01110001, .pick)] = true := by decide
theorem test_decode_arithmetic : decodes
    [(0b01100100, .mul), (0b01100101, .div), (0b01100110, .add), (0b01100111, .sub), (0b01101000, .mod)] = true := by decide
theorem test_decode_bitwise : decodes
    [(0b01101010, .lshift), (0b01101011, .rshift), (0b01101100, .and), (0b01101101, .or), (0b01101110, .xor),
     (0b01101111, .not)] = true := by decide
theorem test_decode_compare : decodes [(0b01110011, .lt), (0b01110100, .gt), (0b01110101, .eq)] = true := by decide
theorem test_decode_reserved_upper : decodes
    [(0b01000111, .rsvG), (0b01001000, .rsvH), (0b01001001, .rsvI), (0b01001010, .rsvJ), (0b01001011, .rsvK),
     (0b01001100, .rsvL), (0b01001101, .rsvM), (0b01001110, .rsvN), (0b01001111, .rsvO), (0b01010000, .rsvP),
     (0b01010001, .rsvQ), (0b01010010, .rsvR), (0b01010011, .rsvS), (0b01010100, .rsvT), (0b01010101, .rsvU),
     (0b01010110, .rsvV), (0b01010111, .rsvW), (0b01011000, .rsvX), (0b01011001, .rsvY), (0b01011010, .rsvZ)] = true := by
  decide
theorem test_decode_reserved_lower : decodes
    [(0b01101001, .rsvLowI), (0b01110110, .rsvLowV), (0b01110111, .rsvLowW), (0b01111000, .rsvLowX),
     (0b01111001, .rsvLowY), (0b01111010, .rsvLowZ)] = true := by decide
theorem test_decode_no_token : decodes [(0b00101110, .fill), (0b00100001, .delim)] = true := by decide
/-- R61, R62: space, newline, `,`, the codes beside the letters, and a byte with the top bit set are `INVALID`. -/
theorem test_decode_invalid :
    ([0x20, 0x0A, 0x2C, 0x2F, 0x3A, 0x40, 0x5B, 0x60, 0x7B, 0xC3].all fun w => decodeTableWord 8 w == none) = true := by decide

/-! ## The decoder on whole sources (L2.1, L2.2) -/

/-- The token words of `LIT v` and `OP c` (R75): 2^32 + v, and the code. -/
theorem test_v_dec_1 : loadResult none [0x68, 0x21, 0x31, 0x21, 0x32] = .ok [0x100000012] := by decide
theorem test_v_dec_3 : loadResult none [0x68, 0x21, 0x31, 0x32, 0x2E, 0x33, 0x34, 0x21, 0x35] =
    .ok [0x100000012, 0x100000345] := by decide
theorem test_v_dec_4 : loadResult none [0x68, 0x21, 0x46, 0x47] = .ok [0x10000000F, 0x47] := by decide
theorem test_v_dec_7 : loadResult none [0x68] = .ok [] := by decide
theorem test_v_dec_10 : loadResult none [0x68, 0x21, 0x31, 0x2E, 0x32, 0x2E, 0x78, 0x33] =
    .ok [0x100000001, 0x100000002, 0x78, 0x100000003] := by decide
/-- A nine-digit numeral keeps its low 32 bits. -/
theorem test_v_dec_11 : loadResult none [0x68, 0x21, 0x31, 0x30, 0x30, 0x30, 0x30, 0x30, 0x30, 0x30, 0x31] =
    .ok [0x100000001] := by decide
theorem test_v_dec_13 : loadResult none [0x41, 0x42, 0x20, 0x43, 0x44, 0x21, 0x61] = .ok [0x61] := by decide
/-- L1 item 8, P2: `header!a!c8!f`. -/
theorem test_end_to_end_tokens :
    loadResult none [0x68, 0x65, 0x61, 0x64, 0x65, 0x72, 0x21, 0x61, 0x21, 0x63, 0x38, 0x21, 0x66] =
      .ok [0x61, 0x63, 0x100000008, 0x66] := by decide
theorem test_v_err_1 : loadResult none [0x68, 0x21, 0x20, 0x31] = .error (.invalidCharacter, 2) := by decide
theorem test_v_err_6 : loadResult (some 2) [0x68, 0x21, 0x61, 0x62, 0x63] = .error (.programTooLong, 5) := by decide
theorem test_v_err_7 : loadResult (some 0) [0x68, 0x21, 0x61, 0x20, 0x62] = .error (.invalidCharacter, 3) := by decide
theorem test_v_err_8 : loadResult (some 3) [0x68, 0x21, 0x61, 0x62, 0x63] = .ok [0x61, 0x62, 0x63] := by decide

/-! ## Instructions (L2.3 to L2.7) -/

theorem test_v_stk_1 : leaves (exec (.lit 0xC8) (start 0 [])) 1 [(1, 0xC8)] = true := by decide
theorem test_v_stk_2 : leaves (exec (.lit 7) (start 255 [(0, 4)])) 0 [(0, 7)] = true := by decide
theorem test_v_stk_3 : leaves (exec .time (beginCompute 0x100000005 (start 2 []))) 3 [(3, 5)] = true := by decide
theorem test_v_stk_4 : leaves (exec .time (beginCompute (-1) (start 2 []))) 3 [(3, 0xFFFFFFFF)] = true := by decide
theorem test_v_stk_6 : leaves (exec .drop (start 3 [(3, 9)])) 2 [(3, 9)] = true := by decide
theorem test_v_stk_7 : leaves (exec .drop (start 0 [])) 255 [] = true := by decide
theorem test_v_stk_8 : leaves (exec .dup (start 1 [(1, 7)])) 2 [(1, 7), (2, 7)] = true := by decide
theorem test_v_stk_9 : leaves (exec .dup (start 255 [(255, 9)])) 0 [(0, 9)] = true := by decide
theorem test_v_stk_10 : leaves (exec .swap (start 2 [(1, 5), (2, 3)])) 2 [(1, 3), (2, 5)] = true := by decide
theorem test_v_stk_11 : leaves (exec .swap (start 0 [(0, 1), (255, 2)])) 0 [(0, 2), (255, 1)] = true := by decide
theorem test_v_stk_13 :
    (reservedLetters.all fun i => leaves (exec i (start 4 [(4, 6)])) 4 [(3, 0), (4, 6), (5, 0)]) = true := by decide
theorem test_v_put_1 : leaves (exec .put (start 4 [(4, 0), (3, 7)])) 3 [(3, 5), (4, 0)] = true := by decide
theorem test_v_put_4 : leaves (exec .put (start 255 [(255, 0), (254, 3)])) 254 [(254, 0)] = true := by decide
/-- V-PUT-7: the operation under bias 0. -/
theorem test_v_put_7 : leaves (putWith 0 (start 4 [(4, 0), (3, 7)])) 3 [(4, 5), (3, 7)] = true := by decide
theorem test_v_pick_1 : leaves (exec .pick (start 3 [(1, 7), (2, 9), (3, 1)])) 3 [(3, 7)] = true := by decide
theorem test_v_pick_7 : leaves (exec .pick (start 5 [(5, 0x104), (0, 0xAB)])) 5 [(5, 0xAB)] = true := by decide
theorem test_v_mul_1 : gives .mul 0x12345678 0x10 0x23456780 = true := by decide
theorem test_v_mul_3 : gives .mul 0xFFFFFFFF 0xFFFFFFFF 1 = true := by decide
theorem test_v_div_2 : gives .div 5 0 0 = true := by decide
theorem test_v_div_6 : gives .div 0xFFFFFFFF 0x10 0x0FFFFFFF = true := by decide
theorem test_v_add_2 : gives .add 0xFFFFFFFF 1 0 = true := by decide
theorem test_v_arith_wrap : leaves (exec .add (start 0 [(0, 3), (255, 4)])) 255 [(255, 7), (0, 3)] = true := by decide
theorem test_v_sub_1 : gives .sub 5 3 2 = true := by decide
theorem test_v_sub_2 : gives .sub 3 5 0xFFFFFFFE = true := by decide
theorem test_v_mod_2 : gives .mod 5 0 0 = true := by decide
theorem test_v_mod_4 : gives .mod 0xFFFFFFFF 0x10 0xF = true := by decide
theorem test_v_shl_2 : gives .lshift 1 31 0x80000000 = true := by decide
theorem test_v_shl_4 : gives .lshift 5 0x100 0 = true := by decide
theorem test_v_shr_3 : gives .rshift 0x80000000 1 0x40000000 = true := by decide
theorem test_v_shr_4 : gives .rshift 0xFFFFFFFF 32 0 = true := by decide
theorem test_v_and_1 : gives .and 0xF0F0 0xFF00 0xF000 = true := by decide
theorem test_v_or_1 : gives .or 0xF0F0 0xFF00 0xFFF0 = true := by decide
theorem test_v_xor_1 : gives .xor 0xF0F0 0xFF00 0x0FF0 = true := by decide
theorem test_v_not_3 : leaves (exec .not (start 2 [(2, 0x12345678)])) 2 [(2, 0xEDCBA987)] = true := by decide
theorem test_v_lt_1 : gives .lt 3 5 0xFFFFFFFF = true := by decide
theorem test_v_lt_4 : gives .lt 0xFFFFFFFF 1 0 = true := by decide
theorem test_v_gt_1 : gives .gt 5 3 0xFFFFFFFF = true := by decide
theorem test_v_gt_2 : gives .gt 3 5 0 = true := by decide
theorem test_v_eq_1 : gives .eq 7 7 0xFFFFFFFF = true := by decide
theorem test_v_eq_2 : gives .eq 0x100 0 0 = true := by decide
/-- R64, R66: the filler ends a numeral. -/
theorem test_fill : next? (exec .fill (loading [] [[0x31]] true)) (fun t =>
    t.scan == some { rest := [], pos := 2, inBody := true, toks := [[0x31]], innum := false }) = true := by decide
/-- R64: the delimiter keeps `INNUM`. -/
theorem test_delim : next? (exec .delim (loading [] [[0x31]] true)) (fun t =>
    t.scan == some { rest := [], pos := 2, inBody := true, toks := [[0x31]], innum := true }) = true := by decide

/-! ## Fetch: a table word placed after reset runs as the next step -/

theorem test_fetch_lit : leaves (step (State.reset.withFetchWord 8 0x43)) 1 [(1, 0xC)] = true := by decide
theorem test_fetch_rsv : next? (step (State.reset.withFetchWord 8 0x47)) (fun t => t.pc == 1) = true := by decide
theorem test_fetch_fill : next? (step (State.reset.withFetchWord 8 0x2E)) (fun t =>
    t.scan == some { rest := [], pos := 1, inBody := true, toks := [], innum := false }) = true := by decide
theorem test_fetch_delim : next? (step (State.reset.withFetchWord 8 0x21)) (fun t =>
    t.scan == some { rest := [], pos := 1, inBody := true, toks := [], innum := false }) = true := by decide

/-! ## The host protocol (L2.8): one step each -/

theorem test_v_host_1 : refusal? (step { State.reset with host := [.afterReply (.compute 0)] }) = some .computeUnloaded := by
  decide
theorem test_v_out_1 : next? (step (placeText [] (running [] []))) (fun t => t.status == .ready) = true := by decide
theorem test_window : next? (step { start 1 [(1, 0x12345678)] with status := .busy }) (fun t =>
    t.out == 0x78 && t.reply == some (.sample 0x78) && t.status == .ready) = true := by decide
theorem test_failed_load : next? (step (loading [0x20] [] false)) (fun t =>
    t.status == .unloaded && t.reply == some (.invalidProgram .invalidCharacter 2)) = true := by decide

/-! ## Witnesses: the hypotheses of each obligation can be met, each clause at a boundary of its range -/

theorem test_witness_SourceTextRoundTrip :
    ([0x67] : List Byte).head? = some 0x67 ∧ isHexDigit 0x67 = false ∧
      decode (encode (.lit 0xC8) ++ [0x67]) = .ok (.lit 0xC8, [0x67]) := by decide
theorem test_witness_TokenWordMeansOneToken : decodeToken 0x61 = .ok .time ∧ tokenWord .time = 0x61 ∧
    decodeToken 0x1FFFFFFFF = .ok (.lit 0xFFFFFFFF) := by decide
theorem test_witness_SourceFormsFound : classOf 0x60 = .invalid ∧ classOf 0x61 = .op ∧ classOf 0x75 = .op ∧
    classOf 0x7A = .rsv ∧ classOf 0x2E = .fill ∧ classOf 0x30 = .hex ∧ classOf 0x39 = .hex ∧ classOf 0x41 = .hex ∧
    classOf 0x46 = .hex := by decide
theorem test_witness_NumeralValueInBaseSixteen :
    ([0x31, 0x32, 0x33, 0x34, 0x35, 0x36, 0x37, 0x38, 0x39] : List Byte).all isHexDigit = true ∧
    numeralWord [0x31, 0x32, 0x33, 0x34, 0x35, 0x36, 0x37, 0x38, 0x39] = 0x23456789 := by decide
theorem test_witness_LitPushesItsValue : classOf 0x43 = .hex ∧ classOf 0x38 = .hex ∧ classOf 0x67 ≠ .hex ∧
    decode [0x43, 0x38, 0x67] = .ok (.lit 0xC8, [0x67]) := by decide
theorem test_witness_ReservedLettersDoNothing : classOf 0x47 = .rsv ∧ classOf 0x5A = .rsv ∧ classOf 0x69 = .rsv ∧
    classOf 0x76 = .rsv ∧ classOf 0x7A = .rsv ∧ Instr.rsvG ∈ reservedLetters ∧ Instr.rsvLowZ ∈ reservedLetters := by decide
theorem test_witness_FillerEndsANumeral : (loading [0x2E] [[0x31]] true).scan.isSome = true ∧ State.reset.scan = none ∧
    waits (loading [0x2E] [[0x31]] true).host = true ∧
    (loading [0x2E] [[0x31]] true).scan.map (fun sc => (sc.rest, sc.inBody)) = some ([0x2E], true) := by decide
theorem test_witness_DelimiterEndsTheHeader :
    (beginLoad [0x21, 0x61] State.reset).scan.map (fun sc => (sc.rest, sc.inBody)) = some ([0x21, 0x61], false) ∧
    waits (beginLoad [0x21, 0x61] State.reset).host = true ∧ State.reset.scan = none := by decide
theorem test_witness_BinaryOperationsNetEffect :
    binaryResult .sub (readEntry (start 0 [(0, 3), (255, 5)]) (dec8 0)) (readEntry (start 0 [(0, 3), (255, 5)]) 0) = some 2 := by
  decide
theorem test_witness_InstructionFrame : leaves (exec .put (start 4 [(3, 7)])) 3 [(3, 5), (4, 0)] = true ∧
    storedEntries .put (start 4 [(3, 7)]) = [3] ∧ (5 : Index) ∉ storedEntries .put (start 4 [(3, 7)]) ∧
    Instr.wf .put = true := by decide
theorem test_witness_DivModEuclidean : readEntry (pair 7 2) (pair 7 2).top ≠ 0 ∧ readEntry (pair 5 0) (pair 5 0).top = 0 := by
  decide
theorem test_witness_IndirectIndexIsTopPlusComplement : ind 1 (start 3 [(3, 0xFF)]) = 3 ∧ ind 1 (start 0 []) = 255 := by decide
theorem test_witness_StepRunsTheDecodedToken : (running [0x61] []).scan = none ∧ (running [0x61] []).status = .busy ∧
    waits (running [0x61] []).host = true ∧ (running [0x61] []).prog[(running [0x61] []).pc]? = some 0x61 ∧
    decodeToken 0x61 = .ok .time := by decide
theorem test_witness_ComputeBegins : (loaded [0x61] [.afterReply (.compute 5)]).scan = none ∧
    (loaded [0x61] [.afterReply (.compute 5)]).status = .ready ∧ requestOf (.afterReply (.compute 5)) = .compute 5 ∧
    next? (step (loaded [0x61] [.afterReply (.compute 5)])) (fun t => t.t == 5 && t.status == .busy) = true := by decide
theorem test_witness_ComputeEndsWithTheWindowByte : (running [] []).scan = none ∧ (running [] []).status = .busy ∧
    waits (running [] []).host = true ∧ (running [] []).prog.length ≤ (running [] []).pc := by decide
theorem test_witness_ComputeRunsAsOneTransaction : (loaded [0x61] [.afterReply (.compute 5)]).prog.all tokenOk = true ∧
    waits (loaded [0x61] [.afterReply (.compute 5)]).host.tail = true ∧
    next? (runFor 3 (loaded [0x61] [.afterReply (.compute 5)])) (fun t => t.reply == some (.sample 5)) = true := by decide
theorem test_witness_ResultDependsOnlyOnStackProgramAndTime : (5 : Int) % 2 ^ 32 = 0x100000005 % 2 ^ 32 ∧
    next? (computeTransaction 5 (loaded [0x61] [])) (fun t => t.out == 5) = true ∧
    next? (computeTransaction 0x100000005 (loaded [0x61] [])) (fun t => t.out == 5) = true := by decide
theorem test_witness_RequestsOutsideTheProtocolAreRefused :
    refusal? (step { State.reset with host := [.atOnce (.compute 0)] }) = some .computeUnloaded ∧
    refusal? (step { beginLoad [0x68] State.reset with host := [.atOnce (.compute 0)] }) = some .computeUnloaded ∧
    refusal? (step (running [0x61] [.atOnce (.compute 0)])) = some .computeBusy ∧
    refusal? (step (running [0x61] [.atOnce (.load [])])) = some .loadBusy := by decide
theorem test_witness_NothingElseIsRefused :
    refusal? (step { beginLoad [0x68] State.reset with host := [.atOnce (.load [])] }) = some .loadWhileLoading ∧
    refusal? (step { beginLoad [0x68] State.reset with host := [.atOnce (.compute 0)] }) = some .computeUnloaded ∧
    (beginLoad [0x68] State.reset).scan ≠ none ∧ (beginLoad [0x68] State.reset).status ≠ .busy := by decide
theorem test_witness_IdleCoreKeepsItsState : (loaded [0x61] []).scan = none ∧ (loaded [0x61] []).status ≠ .busy ∧
    (loaded [0x61] []).host = [] := by decide
theorem test_witness_NoStepFaults : Inv (running [0x61] []) ∧ (running [0x61] []).status = .busy ∧
    waits (running [0x61] []).host = true :=
  ⟨⟨by decide, by decide, by decide, by decide, fun sc h => by cases h⟩, by decide, by decide⟩
theorem test_witness_EveryStepKeepsTheInvariant : Inv (loading [0x32] [[0x31]] true) ∧
    next? (step (loading [0x32] [[0x31]] true)) (fun t =>
      t.scan == some { rest := [], pos := 3, inBody := true, toks := [[0x31, 0x32]], innum := true }) = true :=
  ⟨⟨by decide, by decide, by decide, by decide, fun sc h => by cases h; decide⟩, by decide⟩
theorem test_witness_PowerOnIsUnloaded : State.reset.status = .unloaded ∧ State.reset.scan = none ∧
    requestOf (.afterReply (.compute 0)) = .compute 0 := by decide
theorem test_witness_StackChangesOnlyByTokensAndLoad :
    leaves (step { running [0x70] [] with stack := (start 0 [(0, 7)]).stack }) 1 [(1, 7)] = true ∧
    leaves (step { loading [] [] false with stack := (start 0 [(9, 7)]).stack, top := 9 }) 0 [(9, 0)] = true := by decide
theorem test_witness_ProgramWrittenOnlyByLoad : next? (step (loading [] [[0x61]] false)) (fun t => t.prog == [0x61]) = true ∧
    (loading [] [[0x61]] false).prog = [] := by decide
theorem test_witness_HeaderIsDiscardedUnscanned :
    (beginLoad [0x20, 0x21] State.reset).scan.map (fun sc => (sc.rest, sc.inBody)) = some ([0x20, 0x21], false) ∧
    next? (step (beginLoad [0x20, 0x21] State.reset)) (fun t => t.status == .unloaded && t.reply == none) = true := by decide
theorem test_witness_BodyCharactersMakeTokens : classOf 0x46 = .hex ∧ classOf 0x47 = .rsv ∧ classOf 0x61 = .op ∧
    (loading [0x46] [[0x61], [0x30]] true).scan.map (fun sc => (sc.toks, sc.innum)) = some ([[0x61]] ++ [[0x30]], true) ∧
    next? (step (loading [0x46] [[0x61], [0x30]] true)) (fun t =>
      t.scan.map (fun sc => sc.toks) == some [[0x61], [0x30, 0x46]]) = true ∧
    next? (step (loading [0x46] [[0x30]] false)) (fun t => t.scan.map (fun sc => sc.toks) == some [[0x30], [0x46]]) = true ∧
    next? (step (loading [0x47] [[0x30]] true)) (fun t => t.scan.map (fun sc => sc.innum) == some false) = true := by decide
theorem test_witness_InvalidCharacterFailsTheLoad : classOf 0x80 = .invalid ∧ classOf 0x20 = .invalid ∧
    (loading [0x80] [] false).scan.map (fun sc => (sc.rest, sc.inBody)) = some ([0x80], true) ∧
    waits (loading [0x80] [] false).host = true := by decide
theorem test_witness_SuccessfulLoadResets :
    next? (step { loading [] [[0x61]] false with capacity := some 1 }) (fun t => t.status == .ready) = true ∧
    next? (step { loading [] [[0x61]] false with capacity := some 0 }) (fun t =>
      t.reply == some (.invalidProgram .programTooLong 2)) = true := by decide
theorem test_witness_BodyIsTheSourceLessHeader : (0x21 : Byte) ∉ ([0x68] : List Byte) ∧
    bodyOf ([0x68] ++ 0x21 :: [0x61, 0x21, 0x62]) = [(0x61, 2), (0x62, 4)] := by decide
theorem test_witness_LoadReportsTheFirstError : bodyOf [0x21, 0x61, 0x20, 0x2C] = [(0x61, 1)] ++ (0x20, 2) :: [(0x2C, 3)] ∧
    classOf 0x61 ≠ .invalid ∧ classOf 0x20 = .invalid ∧
    ((bodyOf [0x21, 0x61]).all fun x => classOf x.1 != .invalid) = true := by decide
theorem test_witness_LoadRunsAsOneTransaction :
    next? (runFor 4 { State.reset with host := [.afterReply (.load [0x21, 0x61])] }) (fun t =>
      t.reply == some .ok && t.prog == [0x61]) = true ∧
    next? (runFor 3 { State.reset with host := [.afterReply (.load [0x21, 0x20])] }) (fun t =>
      t.reply == some (.invalidProgram .invalidCharacter 1)) = true := by decide
theorem test_witness_ScanAgreesWithReadingFormByForm : (0x21 : Byte) ∉ ([0x31, 0x32, 0x2E, 0x61] : List Byte) ∧
    scanBody ([0x31, 0x32, 0x2E, 0x61] : List Byte).zipIdx [] false = .ok [[0x31, 0x32], [0x61]] ∧
    scanBody ([0x31, 0x20] : List Byte).zipIdx [] false = .error 1 := by decide
theorem test_witness_RegistersMoveOnlyAtTheirEvents : Inv (loaded [0x61] [.afterReply (.compute 5)]) ∧
    next? (step (loaded [0x61] [.afterReply (.compute 5)])) (fun t => t.status == .busy && t.t == 5) = true ∧
    next? (step (running [0x61] [])) (fun t => t.pc == 1) = true ∧
    next? (step { running [] [] with stack := (start 0 [(0, 0x1FF)]).stack }) (fun t =>
      t.status == .ready && t.out == 0xFF) = true ∧
    next? (step (loaded [0x61] [.afterReply (.load [])])) (fun t => t.status == .unloaded) = true ∧
    next? (step { loading [] [] false with out := 9 }) (fun t => t.status == .ready && t.out == 0) = true :=
  ⟨⟨by decide, by decide, by decide, by decide, fun sc h => by cases h⟩, by decide⟩

end Sys2Proof.Tests
end

/-! # The registers and the two memories, over every instruction and every step (10_state) -/

namespace Sys2Proof.Machine

/-! ## The frame of an instruction -/

/-- What the instruction `i` may change on the way from `s` to `t` (R22, R24, R32): the entries it stores to, `TOP` as the
table says, and, for the two forms that are no token, the `LOAD` in progress. -/
structure ExecFrame (i : Instr) (s t : State) : Prop where
  entries : ∀ a, a ∉ storedEntries i s → readEntry t a = readEntry s a
  top : t.top = topAfter i s.top
  scan : i.wf = true → t.scan = s.scan
  others : t = { s with stack := t.stack, top := t.top, scan := t.scan }

theorem ExecFrame.move {i : Instr} {s : State} : ExecFrame i s (s.withTop (topAfter i s.top)) where
  entries _ _ := rfl
  top := rfl
  scan _ := rfl
  others := rfl

theorem ExecFrame.write {i : Instr} {s t : State} {a : Index} {v : Word} (h : ExecFrame i s t)
    (ha : a ∈ storedEntries i s) : ExecFrame i s (writeEntry a v t) where
  entries b hb := (readEntry_writeEntry_other (ne_of_mem_of_not_mem ha hb).symm).trans (h.entries b hb)
  top := h.top
  scan := h.scan
  others := congrArg (writeEntry a v) h.others

/-- The filler and the delimiter change only the `LOAD` in progress (log 1). -/
theorem ExecFrame.rescan {i : Instr} {s : State} {x : Option Scan} (hwf : i.wf = false)
    (htop : topAfter i s.top = s.top) : ExecFrame i s (s.withScan x) where
  entries _ _ := rfl
  top := htop.symm
  scan h := by simp [hwf] at h
  others := rfl

theorem ExecFrame.of_binary {i : Instr} {f : Word → Word → Int} {s t : State} (h : binary f s = .next t)
    (ha : storedEntries i s = [dec8 s.top]) (htop : topAfter i s.top = dec8 s.top) : ExecFrame i s t := by
  rw [binary_eq, ← htop] at h
  cases h
  exact .write .move (by simp [ha, htop])

/-- Every instruction keeps to its frame. -/
theorem exec_frame {i : Instr} {s t : State} (h : exec i s = .next t) : ExecFrame i s t := by
  cases i with
  | lit v => rw [exec_lit] at h; cases h; exact .write .move List.mem_cons_self
  | time => rw [exec_time] at h; cases h; exact .write .move List.mem_cons_self
  | put => rw [exec_put] at h; cases h; exact .write .move List.mem_cons_self
  | pick => rw [exec_pick] at h; cases h; exact .write .move List.mem_cons_self
  | not => rw [exec_not] at h; cases h; exact .write .move List.mem_cons_self
  | dup => rw [exec_dup] at h; cases h; exact .write .move (by simp [storedEntries])
  | swap =>
    rw [exec_swap] at h
    cases h
    exact .write (.write .move List.mem_cons_self) (by simp [storedEntries])
  | mul | div | add | sub | mod | lshift | rshift | and | or | xor | lt | gt | eq =>
    unfold exec at h
    exact .of_binary h rfl rfl
  | drop | rsvG | rsvH | rsvI | rsvJ | rsvK | rsvL | rsvM | rsvN | rsvO | rsvP | rsvQ | rsvR | rsvS | rsvT | rsvU | rsvV
  | rsvW | rsvX | rsvY | rsvZ | rsvLowI | rsvLowV | rsvLowW | rsvLowX | rsvLowY | rsvLowZ => cases h; exact .move
  | fill | delim => cases h; exact .rescan rfl rfl

/-- Settles O33: the frame of every instruction, register by register. -/
theorem instructionFrame : Obligations.InstructionFrame := by
  intro i s t h
  obtain ⟨hentries, htop, hscan, hothers⟩ := exec_frame h
  refine ⟨hentries, htop, hscan, ?_⟩
  rw [hothers]
  simp

/-! ## What a step does to the registers -/

/-- One character of a `LOAD` moves the scan on, or fails the `LOAD` (R63, R68). -/
theorem loadChar_cases {c : Byte} {rest : List Byte} {sc : Scan} {s t : State} (h : loadChar c rest sc s = .next t) :
    (∃ x, t = s.withScan x) ∨ t = failLoad .invalidCharacter sc.pos s := by
  unfold loadChar at h
  split at h
  · cases h; exact .inl ⟨_, rfl⟩
  split at h
  · unfold loadBodyChar at h
    split at h <;> cases h
    · exact .inl ⟨_, rfl⟩
    · exact .inr rfl
    · exact .inl ⟨_, rfl⟩
  · cases h; exact .inl ⟨_, rfl⟩

/-- The end of the scan fails the `LOAD` or installs its program (R63). -/
theorem finishLoad_cases (sc : Scan) (s : State) :
    finishLoad sc s = failLoad .programTooLong sc.pos s ∨ finishLoad sc s = installProgram (sc.toks.map tokenOfText) s :=
  ite_eq_or_eq _ _ _

/-- The word at `PC` decodes to `i`, and a `COMPUTE` is there to run it (R90, R91). -/
def RunsToken (s : State) (i : Instr) : Prop :=
  ∃ w, s.status = .busy ∧ s.prog[s.pc]? = some w ∧ decodeToken w = .ok i

theorem RunsToken.busy_pc_lt {s : State} {i : Instr} (h : RunsToken s i) : s.status = .busy ∧ s.pc < s.prog.length := by
  obtain ⟨w, hb, hw, -⟩ := h
  exact ⟨hb, (List.getElem?_eq_some_iff.mp hw).1⟩

/-- `step_cases` by what happens to the registers: at most the scan moves, or the step is one of the six events of a
transaction. -/
inductive StepEvent (s : State) : State → Prop where
  /-- The core idles, or a `LOAD` goes one character on. -/
  | quiet (x : Option Scan) : StepEvent s (s.withScan x)
  /-- A `LOAD` ends with an error. -/
  | loadFails {sc : Scan} {cause : Cause} {pos : Nat} (hs : s.scan = some sc) : StepEvent s (failLoad cause pos s)
  /-- A `LOAD` ends with success. -/
  | loadSucceeds {sc : Scan} {prog : List TokenWord} (hs : s.scan = some sc) : StepEvent s (installProgram prog s)
  /-- A token of a `COMPUTE`. -/
  | token {i : Instr} {u : State} (hi : RunsToken s i) (hu : ExecFrame i s u) : StepEvent s (u.withPc (u.pc + 1))
  /-- The end of a `COMPUTE`. -/
  | computeEnds (hb : s.status = .busy) (hpc : s.prog.length ≤ s.pc) : StepEvent s (finishCompute s)
  /-- A `LOAD` begins. -/
  | loadBegins {m : HostMove} {more : List HostMove} {src : List Byte} (hb : s.status ≠ .busy) (hh : s.host = m :: more)
      (hm : requestOf m = .load src) : StepEvent s (beginLoad src { s with host := more })
  /-- A `COMPUTE` begins. -/
  | computeBegins {m : HostMove} {more : List HostMove} {a : Int} (hr : s.status = .ready) (hh : s.host = m :: more)
      (hm : requestOf m = .compute a) : StepEvent s (beginCompute a { s with host := more })

theorem step_event {s t : State} (h : step s = .next t) : StepEvent s t := by
  cases step_cases h with
  | loadEnds sc hs _ ht =>
    subst ht
    obtain hf | hi := finishLoad_cases sc s
    · rw [hf]; exact .loadFails hs
    · rw [hi]; exact .loadSucceeds hs
  | loads sc c rest hs _ ht =>
    obtain ⟨x, rfl⟩ | rfl := loadChar_cases ht
    · exact .quiet x
    · exact .loadFails hs
  | runs i w u _ hb hw hi he ht => subst ht; exact .token ⟨w, hb, hw, hi⟩ (exec_frame he)
  | computeEnds _ hb hw ht => subst ht; exact .computeEnds hb (List.getElem?_eq_none_iff.mp hw)
  | idles _ _ _ ht => subst ht; exact .quiet t.scan
  | loadBegins m more src _ hb hh hm ht => subst ht; exact .loadBegins hb hh hm
  | computeBegins m more a _ hr hh hm ht => subst ht; exact .computeBegins hr hh hm

/-- The registers a token never touches, and `PC` one further (R22, R90). -/
theorem ExecFrame.withPc_registers {i : Instr} {s u : State} (h : ExecFrame i s u) :
    (u.withPc (u.pc + 1)).prog = s.prog ∧ (u.withPc (u.pc + 1)).out = s.out ∧ (u.withPc (u.pc + 1)).t = s.t ∧
      (u.withPc (u.pc + 1)).pc = s.pc + 1 ∧ (u.withPc (u.pc + 1)).status = s.status := by
  rw [h.others]
  simp

/-! ## The two memories -/

/-- The stack file, `TOP` and `PROG` stand still, but where a token runs, which keeps `PROG`, or a `LOAD` ends. -/
theorem step_memories {s t : State} (h : step s = .next t) :
    ((∀ a, readEntry t a = readEntry s a) ∧ t.top = s.top ∧ t.prog = s.prog) ∨
    (∃ i, RunsToken s i ∧ (∀ a, a ∉ storedEntries i s → readEntry t a = readEntry s a) ∧ t.top = topAfter i s.top ∧
      t.prog = s.prog) ∨
    (s.scan ≠ none ∧ t.scan = none) := by
  cases step_event h with
  | quiet | computeEnds | loadBegins | computeBegins => exact .inl ⟨fun _ => rfl, rfl, rfl⟩
  | loadFails hs | loadSucceeds hs => exact .inr (.inr ⟨by simp [hs], rfl⟩)
  | token hi hu =>
    obtain ⟨hprog, -⟩ := hu.withPc_registers
    exact .inr (.inl ⟨_, hi, hu.entries, hu.top, hprog⟩)

/-- Settles O49: of what a step can do, only a token and the end of a `LOAD` leave another stack file or `TOP`. -/
theorem stackChangesOnlyByTokensAndLoad : Obligations.StackChangesOnlyByTokensAndLoad := by
  intro s t h
  obtain ⟨hentries, htop, -⟩ | ⟨i, ⟨w, hb, hw, hi⟩, hentries, htop, -⟩ | hends := step_memories h
  · exact ⟨fun a hne => (hne (hentries a)).elim, fun hne => (hne htop).elim⟩
  · exact ⟨fun a hne => .inl ⟨w, i, hb, hw, hi, by_contra fun ha => hne (hentries a ha)⟩,
      fun _ => .inl ⟨w, i, hb, hw, hi, htop⟩⟩
  · exact ⟨fun _ _ => .inr hends, fun _ => .inr hends⟩

/-- Settles O50: a token keeps `PROG`, so only the end of a `LOAD` is left. -/
theorem programWrittenOnlyByLoad : Obligations.ProgramWrittenOnlyByLoad := by
  intro s t h hne
  obtain ⟨-, -, hprog⟩ | ⟨i, -, -, -, hprog⟩ | hends := step_memories h
  · exact (hne hprog).elim
  · exact (hne hprog).elim
  · exact hends

/-! ## `OUT`, `T`, `PC` and `STATUS` -/

/-- R28, R97, R221: where `OUT` changes. -/
theorem step_out_changes {s t : State} (h : step s = .next t) (hne : t.out ≠ s.out) :
    (s.status = .busy ∧ s.prog.length ≤ s.pc ∧ t.status = .ready ∧ t.out = windowByte s) ∨
    (s.scan ≠ none ∧ t.scan = none ∧ t.status = .ready ∧ t.out = 0) := by
  cases step_event h with
  | quiet | loadFails | loadBegins | computeBegins => exact (hne rfl).elim
  | token _ hu =>
    obtain ⟨-, hout, -⟩ := hu.withPc_registers
    exact (hne hout).elim
  | computeEnds hb hpc => exact .inl ⟨hb, hpc, rfl, rfl⟩
  | loadSucceeds hs => exact .inr ⟨by simp [hs], rfl, rfl, rfl⟩

/-- R27, R90: where `T` changes. -/
theorem step_t_changes {s t : State} (h : step s = .next t) (hne : t.t ≠ s.t) :
    s.status = .ready ∧ t.status = .busy ∧
      ∃ m more a, s.host = m :: more ∧ requestOf m = .compute a ∧ t.t = BitVec.ofInt 32 a := by
  cases step_event h with
  | quiet | loadFails | loadSucceeds | computeEnds | loadBegins => exact (hne rfl).elim
  | token _ hu =>
    obtain ⟨-, -, hlatch, -⟩ := hu.withPc_registers
    exact (hne hlatch).elim
  | computeBegins hr hh hm => exact ⟨hr, rfl, _, _, _, hh, hm, rfl⟩

/-- R26, R90: where `PC` changes. -/
theorem step_pc_changes {s t : State} (h : step s = .next t) (hne : t.pc ≠ s.pc) :
    (s.status = .busy ∧ s.pc < s.prog.length ∧ t.pc = s.pc + 1) ∨
    (s.status = .ready ∧ t.status = .busy ∧ t.pc = 0 ∧ ∃ m more a, s.host = m :: more ∧ requestOf m = .compute a) := by
  cases step_event h with
  | quiet | loadFails | loadSucceeds | computeEnds | loadBegins => exact (hne rfl).elim
  | token hi hu =>
    obtain ⟨hb, hlt⟩ := hi.busy_pc_lt
    obtain ⟨-, -, -, hpc, -⟩ := hu.withPc_registers
    exact .inl ⟨hb, hlt, hpc⟩
  | computeBegins hr hh hm => exact .inr ⟨hr, rfl, rfl, _, _, _, hh, hm⟩

/-- R29, R63: where `STATUS` changes.  The invariant says that a `LOAD` runs only while `UNLOADED`. -/
theorem step_status_changes {s t : State} (h : step s = .next t) (hinv : Inv s) (hne : t.status ≠ s.status) :
    (s.status = .ready ∧ t.status = .busy ∧ ∃ m more a, s.host = m :: more ∧ requestOf m = .compute a) ∨
    (s.status = .busy ∧ t.status = .ready ∧ s.prog.length ≤ s.pc) ∨
    (s.status = .ready ∧ t.status = .unloaded ∧
      ∃ m more src, s.host = m :: more ∧ requestOf m = .load src ∧ t.scan = some (startScan src)) ∨
    (s.status = .unloaded ∧ t.status = .ready ∧ s.scan ≠ none ∧ t.scan = none) := by
  cases step_event h with
  | quiet => exact (hne rfl).elim
  | token _ hu =>
    obtain ⟨-, -, -, -, hstatus⟩ := hu.withPc_registers
    exact (hne hstatus).elim
  | computeBegins hr hh hm => exact .inl ⟨hr, rfl, _, _, _, hh, hm⟩
  | computeEnds hb hpc => exact .inr (.inl ⟨hb, rfl, hpc⟩)
  | loadBegins hb hh hm =>
    have hready : s.status = .ready := by
      cases hs : s.status with
      | unloaded => exact (hne hs.symm).elim
      | ready => rfl
      | busy => exact (hb hs).elim
    exact .inr (.inr (.inl ⟨hready, rfl, _, _, _, hh, hm, rfl⟩))
  | loadFails hs =>
    obtain ⟨hunloaded, -⟩ := hinv.loading _ hs
    exact (hne hunloaded.symm).elim
  | loadSucceeds hs =>
    obtain ⟨hunloaded, -⟩ := hinv.loading _ hs
    exact .inr (.inr (.inr ⟨hunloaded, rfl, by simp [hs], rfl⟩))

/-- Settles O59: the four registers one by one. -/
theorem registersMoveOnlyAtTheirEvents : Obligations.RegistersMoveOnlyAtTheirEvents :=
  fun _ _ h => ⟨step_out_changes h, step_t_changes h, step_pc_changes h, step_status_changes h⟩

end Sys2Proof.Machine

/-! # Indirect addressing: the index of PUT and PICK (20_memory), and PUT (42_indirect) -/

namespace Sys2Proof.Machine

/-! ## One-character tokens -/

theorem classOf_of_letterOf {c : Byte} (h : (letterOf c).isSome) : classOf c = .op ∨ classOf c = .rsv := by
  revert c; decide

theorem decode_letter {c : Byte} {i : Instr} (h : letterOf c = some i) (rest : List Byte) :
    decode (c :: rest) = .ok (i, rest) := by
  obtain hc | hc := classOf_of_letterOf (Option.isSome_of_eq_some h) <;> simp [decode, hc, h]

theorem decodeToken_letter {c : Byte} {i : Instr} (h : letterOf c = some i) :
    decodeToken (BitVec.setWidth 33 c) = .ok i := by
  have hzeros : (BitVec.setWidth 33 c).extractLsb' 8 24 = 0 := by ext; simp
  have hcode : (BitVec.setWidth 33 c).extractLsb' 0 8 = c := by
    rw [BitVec.extractLsb'_setWidth_of_le (by decide), BitVec.extractLsb'_eq_self]
  simp [decodeToken, hzeros, hcode, h]

/-- An instruction whose text is one letter of the opcode map is encoded by it (R71, R75). -/
theorem EncodedAs.of_letter {i : Instr} {c : Byte} (htext : encode i = [c]) (h : letterOf c = some i) : EncodedAs i c :=
  ⟨htext, decode_letter h, decodeToken_letter h⟩

/-! ## The indirect index -/

/-- Only the low byte of the index value counts (R41). -/
theorem ind_eq_sub (b : Nat) (s : State) :
    ind b s = s.top - ((readEntry s s.top).setWidth 8 + BitVec.ofNat 8 b) := by
  apply BitVec.eq_of_toNat_eq
  simp [ind, BitVec.toNat_ofInt, BitVec.toNat_sub]
  omega

theorem ind_eq_emod (b : Nat) (s : State) :
    ind b s = BitVec.ofInt 8 (((s.top.toNat : Int) - (((readEntry s s.top).toNat : Int) + b) % 256) % 256) := by
  apply BitVec.eq_of_toNat_eq
  simp [ind, BitVec.toNat_ofInt]

theorem ind_one_eq_add_not (s : State) : ind 1 s = s.top + ~~~((readEntry s s.top).setWidth 8) := by
  rw [ind_eq_sub, BitVec.sub_eq_add_neg, BitVec.neg_add, BitVec.neg_eq_not_add]
  simp

/-- Settles O35: `TOP` and `dec8(TOP)` are `TOP` plus the complements of 0xFF and of 0, so each corner is one low byte. -/
theorem indirectIndexIsTopPlusComplement : Obligations.IndirectIndexIsTopPlusComplement := by
  intro s
  have htop : s.top + ~~~(0xFF : Byte) = s.top := by simp
  have hdec : s.top + ~~~(0 : Byte) = dec8 s.top := by simp [dec8, BitVec.sub_eq_add_neg]
  have hcorner (x : Byte) : ind 1 s = s.top + ~~~x ↔ (readEntry s s.top).setWidth 8 = x := by
    rw [ind_one_eq_add_not, BitVec.add_right_inj, BitVec.not_inj]
  exact ⟨ind_one_eq_add_not s, by rw [← hcorner, htop], by rw [← hcorner, hdec]⟩

/-! ## PUT -/

/-- A move of `TOP` and one store are all that `WritesOne` allows. -/
theorem writesOne_writeEntry (s : State) (p a : Index) (v : Word) : WritesOne s (writeEntry a v (s.withTop p)) p a v :=
  ⟨rfl, readEntry_writeEntry_same .., fun _ => readEntry_writeEntry_other, rfl⟩

theorem setWidth_inc8 (x : Index) : BitVec.setWidth 32 (inc8 x) = BitVec.ofNat 32 ((x.toNat + 1) % 256) := by
  rw [← inc8_toNat, BitVec.ofNat_toNat]

/-- PUT under any bias is one store and a pop (R130). -/
theorem putWith_writesOne (b : Nat) (s : State) : ∃ t, putWith b s = .next t ∧
    WritesOne s t (dec8 s.top) (ind b s) (BitVec.ofNat 32 ((s.top.toNat + 1) % 256)) :=
  ⟨_, putWith_eq b s, setWidth_inc8 s.top ▸ writesOne_writeEntry ..⟩

/-- Settles O13: PUT is the shared operation under the bias 1, whose index is the formula of R41. -/
theorem putStoresTheNextIndex : Obligations.PutStoresTheNextIndex :=
  ⟨.of_letter rfl rfl, putWith_writesOne 1, fun b s => ind_eq_emod b s ▸ putWith_writesOne b s⟩

end Sys2Proof.Machine

/-! # The encodings: characters, source text, numerals, token words (30_encoding) -/

namespace Sys2Proof.Machine

/-! ## The classes of the characters -/

theorem classOf_eq_hex_iff (c : Byte) : classOf c = .hex ↔ isHexDigit c = true := by
  revert c; decide

theorem classOf_eq_fill_iff (c : Byte) : classOf c = .fill ↔ c = 0x2E := by
  revert c; decide

theorem classOf_eq_delim_iff (c : Byte) : classOf c = .delim ↔ c = 0x21 := by
  revert c; decide

theorem classOf_eq_op_iff (c : Byte) : classOf c = .op ↔ (opcodeOf c).isSome = true := by
  revert c; decide

theorem classOf_eq_rsv_iff (c : Byte) : classOf c = .rsv ↔ (reservedOf c).isSome = true := by
  revert c; decide

theorem opcodeOf_isSome_iff (c : Byte) :
    (opcodeOf c).isSome = true ↔ 0x61 ≤ c.toNat ∧ c.toNat ≤ 0x75 ∧ c.toNat ≠ 0x69 := by
  revert c; decide

theorem reservedOf_isSome_iff (c : Byte) : (reservedOf c).isSome = true ↔
    0x47 ≤ c.toNat ∧ c.toNat ≤ 0x5A ∨ c.toNat = 0x69 ∨ 0x76 ≤ c.toNat ∧ c.toNat ≤ 0x7A := by
  revert c; decide

/-- Settles O1: each class by the test that defines it. -/
theorem characterClassesAsListed : Obligations.CharacterClassesAsListed := by
  refine ⟨fun c => ⟨?_, ?_, ?_, ?_, ?_⟩, by decide, by decide, by decide, by decide⟩
  · simp [classOf_eq_hex_iff, isHexDigit]
  · exact (classOf_eq_fill_iff c).trans BitVec.toNat_inj.symm
  · exact (classOf_eq_delim_iff c).trans BitVec.toNat_inj.symm
  · exact (classOf_eq_op_iff c).trans (opcodeOf_isSome_iff c)
  · exact (classOf_eq_rsv_iff c).trans (reservedOf_isSome_iff c)

/-- Settles O2: each word of the opcode map is read by the decoder. -/
theorem specWordsDecode : Obligations.SpecWordsDecode := by
  unfold Obligations.SpecWordsDecode
  decide

/-! ## The source text of an instruction -/

/-- The opcode map read in both directions: the letter that names an operation is its source text (R73). -/
theorem encode_of_letterOf {c : Byte} {i : Instr} (h : letterOf c = some i) : encode i = [c] := by
  have hall : ∀ c : Byte, ∀ i ∈ letterOf c, encode i = [c] := by decide
  exact hall c i h

/-- The four source forms (R71): F-LIT, F-FILL, F-DELIM and F-OP. -/
inductive SourceForm : Instr → Prop where
  | lit (v : Word) : SourceForm (.lit v)
  | fill : SourceForm .fill
  | delim : SourceForm .delim
  | letter {i : Instr} {c : Byte} (h : letterOf c = some i) : SourceForm i

theorem sourceForm (i : Instr) : SourceForm i := by
  have hletter : letterOf ((encode i).headD 0) = some i → SourceForm i := .letter
  cases i with
  | lit v => exact .lit v
  | fill => exact .fill
  | delim => exact .delim
  | _ => exact hletter rfl

/-- A digit starts the literal of the longest run of digits (R71). -/
theorem decode_digit {c : Byte} (hc : isHexDigit c = true) (rest : List Byte) :
    decode (c :: rest) =
      .ok (.lit (numeralWord (c :: rest.takeWhile isHexDigit)), rest.dropWhile isHexDigit) := by
  rw [decode, (classOf_eq_hex_iff c).mpr hc]

/-- A run of digits that no digit follows is one literal (R65, R71). -/
theorem decode_numeral {ds tail : List Byte} (hne : ds ≠ []) (hds : ∀ d ∈ ds, isHexDigit d = true)
    (htail : ∀ d, tail.head? = some d → isHexDigit d = false) :
    decode (ds ++ tail) = .ok (.lit (numeralWord ds), tail) := by
  obtain ⟨c, cs, rfl⟩ := List.exists_cons_of_ne_nil hne
  obtain ⟨hc, hcs⟩ := List.forall_mem_cons.mp hds
  have htake : tail.takeWhile isHexDigit = [] := by cases tail <;> simp_all
  have hdrop : tail.dropWhile isHexDigit = tail := by cases tail <;> simp_all
  rw [List.cons_append, decode_digit hc, List.takeWhile_append_of_pos hcs, List.dropWhile_append_of_pos hcs, htake,
    hdrop, List.append_nil]

/-- Settles O3: by the form of the instruction. -/
theorem sourceTextRoundTrip : Obligations.SourceTextRoundTrip := by
  intro i rest htail
  cases sourceForm i with
  | lit v =>
    have hround := decode_numeral (ds := hexDigits v) (List.cons_ne_nil _ _)
      (List.all_eq_true.mp (hexDigits_all v)) (fun d => htail v d rfl)
    rwa [numeralWord_hexDigits] at hround
  | fill => rfl
  | delim => rfl
  | letter h => rw [encode_of_letterOf h]; exact decode_letter h rest

theorem letterOf_of_classOf {c : Byte} (h : classOf c = .op ∨ classOf c = .rsv) : ∃ i, letterOf c = some i := by
  apply Option.isSome_iff_exists.mp
  revert c; decide

theorem letterOf_of_invalid {c : Byte} (h : classOf c = .invalid) : letterOf c = none := by
  revert c; decide

theorem decode_invalid {c : Byte} (h : classOf c = .invalid) (rest : List Byte) :
    decode (c :: rest) = .error .invalidCharacter := by
  simp [decode, h, letterOf_of_invalid h]

/-- A character that is neither a digit nor `INVALID` is a form by itself (R71). -/
theorem decode_single {c : Byte} (hinvalid : classOf c ≠ .invalid) (hhex : classOf c ≠ .hex) (rest : List Byte) :
    ∃ i, encode i = [c] ∧ decode (c :: rest) = .ok (i, rest) := by
  have hletter (h : classOf c = .op ∨ classOf c = .rsv) : ∃ i, encode i = [c] ∧ decode (c :: rest) = .ok (i, rest) :=
    (letterOf_of_classOf h).imp fun _ hi => ⟨encode_of_letterOf hi, decode_letter hi rest⟩
  cases hc : classOf c with
  | hex => exact (hhex hc).elim
  | invalid => exact (hinvalid hc).elim
  | fill => rw [(classOf_eq_fill_iff c).mp hc]; exact ⟨.fill, rfl, rfl⟩
  | delim => rw [(classOf_eq_delim_iff c).mp hc]; exact ⟨.delim, rfl, rfl⟩
  | op => exact hletter (.inl hc)
  | rsv => exact hletter (.inr hc)

/-- Settles O5: the run of digits is `takeWhile`'s, and no digit follows it. -/
theorem sourceFormsFound : Obligations.SourceFormsFound := by
  intro c rest
  refine ⟨fun h => decode_invalid h rest, fun hinvalid hhex => decode_single hinvalid hhex rest, fun hhex => ?_⟩
  refine ⟨rest.takeWhile isHexDigit, rest.dropWhile isHexDigit, List.takeWhile_append_dropWhile.symm,
    fun d hd => (classOf_eq_hex_iff d).mpr (List.mem_takeWhile_imp hd), fun d hd => ?_,
    decode_digit ((classOf_eq_hex_iff c).mp hhex) rest⟩
  have hnot := List.head?_dropWhile_not isHexDigit rest
  rw [hd] at hnot
  simpa [classOf_eq_hex_iff] using hnot

/-! ## Token words -/

theorem eq_litTokenWord {w : TokenWord} (hkind : w.getLsbD 32 = true) : w = litTokenWord (w.extractLsb' 0 32) := by
  apply BitVec.eq_of_getLsbD_eq
  intro k hk
  obtain h | rfl : k < 32 ∨ k = 32 := by omega
  · simp [litTokenWord_bit, h]
  · rw [hkind, litTokenWord_kind]

theorem eq_opTokenWord {w : TokenWord} (hkind : w.getLsbD 32 = false) (hzeros : w.extractLsb' 8 24 = 0) :
    w = opTokenWord (w.extractLsb' 0 8) := by
  apply BitVec.eq_of_getLsbD_eq
  intro k hk
  rw [opTokenWord, BitVec.getLsbD_setWidth, BitVec.getLsbD_extractLsb', Nat.zero_add]
  obtain h | ⟨hlow, hhigh⟩ | rfl : k < 8 ∨ (8 ≤ k ∧ k < 32) ∨ k = 32 := by omega
  · simp [hk, h]
  · have hbit : (w.extractLsb' 8 24).getLsbD (k - 8) = false := by rw [hzeros]; exact BitVec.getLsbD_zero
    rw [BitVec.getLsbD_extractLsb', Nat.add_sub_cancel' hlow] at hbit
    simpa [hlow.not_gt, show k - 8 < 24 by omega] using hbit
  · simpa using hkind

/-- What the dispatcher can read from a token word: a literal, or a letter of the opcode map (R75, R91). -/
theorem decodeToken_cases {w : TokenWord} {i : Instr} (h : decodeToken w = .ok i) :
    (∃ v, w = litTokenWord v ∧ i = .lit v) ∨ ∃ c, w = opTokenWord c ∧ letterOf c = some i := by
  unfold decodeToken at h
  split at h
  · next hkind => cases h; exact .inl ⟨_, eq_litTokenWord hkind, rfl⟩
  next hkind =>
  split at h
  · next hzeros =>
    split at h
    · next hi => cases h; exact .inr ⟨_, eq_opTokenWord (Bool.eq_false_of_not_eq_true hkind) hzeros, hi⟩
    · cases h
  · cases h

theorem isHexDigit_of_letterOf {c : Byte} {i : Instr} (h : letterOf c = some i) : isHexDigit c = false := by
  rw [Bool.eq_false_iff, ne_eq, ← classOf_eq_hex_iff]
  obtain hc | hc := classOf_of_letterOf (Option.isSome_of_eq_some h) <;> simp [hc]

theorem tokenWord_of_letterOf {c : Byte} {i : Instr} (h : letterOf c = some i) : tokenWord i = opTokenWord c := by
  simp [tokenWord, encode_of_letterOf h, tokenOfText, isHexDigit_of_letterOf h]

theorem wf_of_letterOf {c : Byte} {i : Instr} (h : letterOf c = some i) : i.wf = true := by
  have hall : ∀ c : Byte, ∀ i ∈ letterOf c, i.wf = true := by decide
  exact hall c i h

/-- Settles O4: one way by what the dispatcher can read, the other by the form of the instruction. -/
theorem tokenWordMeansOneToken : Obligations.TokenWordMeansOneToken := by
  intro w i
  constructor
  · intro h
    obtain ⟨v, rfl, rfl⟩ | ⟨c, rfl, hc⟩ := decodeToken_cases h
    · exact ⟨rfl, tokenWord_lit v⟩
    · exact ⟨wf_of_letterOf hc, tokenWord_of_letterOf hc⟩
  · rintro ⟨hwf, rfl⟩
    cases sourceForm i with
    | lit v => rw [tokenWord_lit, decodeToken_litTokenWord]
    | fill => cases hwf
    | delim => cases hwf
    | letter h => rw [tokenWord_of_letterOf h]; exact decodeToken_letter h

/-! ## Numerals -/

theorem hexValue_append (ds es : List Byte) :
    hexValue (ds ++ es) = hexValue ds * 16 ^ es.length + hexValue es := by
  induction es using List.reverseRecOn with
  | nil => simp [hexValue]
  | append_singleton es e ih =>
    have hlast (xs : List Byte) : hexValue (xs ++ [e]) = hexValue xs * 16 + digitValue e := by simp [hexValue]
    rw [← List.append_assoc, hlast, hlast, ih, List.length_append, List.length_singleton]
    ring

theorem hexValue_cons (d : Byte) (ds : List Byte) :
    hexValue (d :: ds) = digitValue d * 16 ^ ds.length + hexValue ds := by
  simpa [hexValue] using hexValue_append [d] ds

/-- Digits more than eight places from the right have weights that are multiples of 2^32 (R70). -/
theorem numeralWord_append {ds es : List Byte} (h : 8 ≤ es.length) : numeralWord (ds ++ es) = numeralWord es := by
  have hweight : 2 ^ 32 ∣ hexValue ds * 16 ^ es.length :=
    Dvd.dvd.mul_left ((by decide : 2 ^ 32 ∣ 16 ^ 8).trans (pow_dvd_pow 16 h)) _
  apply BitVec.eq_of_toNat_eq
  rw [numeralWord, numeralWord, hexValue_append, BitVec.toNat_ofNat, BitVec.toNat_ofNat, Nat.add_mod,
    Nat.mod_eq_zero_of_dvd hweight, Nat.zero_add, Nat.mod_mod]

theorem numeralWord_drop (ds : List Byte) : numeralWord ds = numeralWord (ds.drop (ds.length - 8)) := by
  by_cases h : 8 ≤ ds.length
  · conv_lhs => rw [← List.take_append_drop (ds.length - 8) ds]
    exact numeralWord_append (by rw [List.length_drop]; omega)
  · rw [Nat.sub_eq_zero_of_le (by omega), List.drop_zero]

/-- Settles O6: the value by the weight of each digit. -/
theorem numeralValueInBaseSixteen : Obligations.NumeralValueInBaseSixteen := by
  refine ⟨hexValue_cons, fun ds => ?_, fun _ => rfl, fun ds _ => numeralWord_drop ds⟩
  have hzero : digitValue 0x30 = 0 := rfl
  rw [numeralWord, hexValue_cons, hzero, Nat.zero_mul, Nat.zero_add, numeralWord]

/-! ## The reserved letters -/

theorem mem_reservedLetters_iff {c : Byte} {i : Instr} (h : letterOf c = some i) :
    i ∈ reservedLetters ↔ classOf c = .rsv := by
  have hall : ∀ c : Byte, ∀ i ∈ letterOf c, i ∈ reservedLetters ↔ classOf c = .rsv := by decide
  exact hall c i h

theorem exec_reserved {i : Instr} (h : i ∈ reservedLetters) (s : State) : exec i s = .next s := by
  cases i with
  | rsvG | rsvH | rsvI | rsvJ | rsvK | rsvL | rsvM | rsvN | rsvO | rsvP | rsvQ | rsvR | rsvS | rsvT | rsvU | rsvV | rsvW
  | rsvX | rsvY | rsvZ | rsvLowI | rsvLowV | rsvLowW | rsvLowX | rsvLowY | rsvLowZ => rfl
  | _ => simp [reservedLetters] at h

/-- Settles O12: among the letters of the opcode map, those of class `RSV` are the reserved instructions'. -/
theorem reservedLettersDoNothing : Obligations.ReservedLettersDoNothing := by
  refine ⟨rfl, fun c hc => ?_, fun i hi => ⟨?_, exec_reserved hi⟩⟩
  · obtain ⟨i, h⟩ := letterOf_of_classOf (.inr hc)
    exact ⟨i, (mem_reservedLetters_iff h).mpr hc, .of_letter (encode_of_letterOf h) h⟩
  · cases sourceForm i with
    | lit v => simp [reservedLetters] at hi
    | fill => simp [reservedLetters] at hi
    | delim => simp [reservedLetters] at hi
    | letter h => exact ⟨_, (mem_reservedLetters_iff h).mp hi, .of_letter (encode_of_letterOf h) h⟩

end Sys2Proof.Machine

/-! # The load-time decoder: its steps, and the whole `LOAD` (30_encoding R60, R63 to R72) -/

namespace Sys2Proof.Machine

/-! ## One character of a `LOAD` -/

theorem overlapRefusal_of_waits {s : State} (h : waits s.host = true) : overlapRefusal s = none := by
  unfold overlapRefusal
  split
  · next r more hh => rw [hh] at h; cases h
  · rfl

theorem step_stepLoad {s : State} {sc : Scan} (hs : s.scan = some sc) (hw : waits s.host = true) :
    step s = stepLoad sc s := by
  rw [step, cycle, overlapRefusal_of_waits hw, hs]

theorem step_loadChar {s : State} {sc : Scan} {c : Byte} {rest : List Byte} (hs : s.scan = some sc)
    (hr : sc.rest = c :: rest) (hw : waits s.host = true) : step s = loadChar c rest sc s := by
  rw [step_stepLoad hs hw, stepLoad, hr]

theorem step_finishLoad {s : State} {sc : Scan} (hs : s.scan = some sc) (hr : sc.rest = [])
    (hw : waits s.host = true) : step s = .next (finishLoad sc s) := by
  rw [step_stepLoad hs hw, stepLoad, hr]

section
variable (rest : List Byte) {sc : Scan} (s : State)

theorem loadChar_delim : loadChar 0x21 rest sc s = exec .delim (s.withScan (some (passChar rest sc))) := rfl

theorem loadChar_header {c : Byte} (hbody : sc.inBody = false) (hc : c ≠ 0x21) :
    loadChar c rest sc s = .next (s.withScan (some (passChar rest sc))) := by
  rw [loadChar, if_neg ((classOf_eq_delim_iff c).not.mpr hc), if_neg (Bool.eq_false_iff.mp hbody)]

theorem loadChar_inBody {c : Byte} (hbody : sc.inBody = true) (hc : c ≠ 0x21) :
    loadChar c rest sc s = loadBodyChar c rest sc s := by
  rw [loadChar, if_neg ((classOf_eq_delim_iff c).not.mpr hc), if_pos hbody]

theorem loadChar_fill (hbody : sc.inBody = true) :
    loadChar 0x2E rest sc s = exec .fill (s.withScan (some (passChar rest sc))) :=
  loadChar_inBody rest s hbody (by decide)

theorem loadChar_invalid {c : Byte} (hbody : sc.inBody = true) (hc : classOf c = .invalid) :
    loadChar c rest sc s = .next (failLoad .invalidCharacter sc.pos s) := by
  have hne : c ≠ 0x21 := by rintro rfl; cases hc
  rw [loadChar_inBody rest s hbody hne, loadBodyChar, hc]

/-- The scan past a body character of another class than `INVALID` (R63). -/
def passBodyChar (c : Byte) (rest : List Byte) (sc : Scan) : Scan :=
  { passChar rest sc with toks := (scanChar c sc.toks sc.innum).1, innum := (scanChar c sc.toks sc.innum).2 }

/-- The filler's instruction and R63's loop body do the same to the scan (R66). -/
theorem loadChar_body {c : Byte} (hbody : sc.inBody = true) (hne : c ≠ 0x21) (hc : classOf c ≠ .invalid) :
    loadChar c rest sc s = .next (s.withScan (some (passBodyChar c rest sc))) := by
  rw [loadChar_inBody rest s hbody hne, loadBodyChar]
  split
  · next hfill => rw [exec_fill, passBodyChar, scanChar, hfill]; rfl
  · next hinvalid => exact (hc hinvalid).elim
  · rfl

end

theorem extendLast_append_singleton (before : List (List Byte)) (text : List Byte) (c : Byte) :
    extendLast (before ++ [text]) c = before ++ [text ++ [c]] := by
  induction before with
  | nil => rfl
  | cons b before ih =>
    cases before with
    | nil => rfl
    | cons b' before => exact congrArg (b :: ·) ih

theorem scanChar_digit_extends {c : Byte} (hc : classOf c = .hex) (before : List (List Byte)) (text : List Byte) :
    scanChar c (before ++ [text]) true = (before ++ [text ++ [c]], true) := by
  simp [scanChar, hc, extendLast_append_singleton]

theorem scanChar_digit_starts {c : Byte} (hc : classOf c = .hex) (toks : List (List Byte)) :
    scanChar c toks false = (toks ++ [[c]], true) := by
  simp [scanChar, hc]

theorem scanChar_letter {c : Byte} (hc : classOf c = .op ∨ classOf c = .rsv) (toks : List (List Byte)) (innum : Bool) :
    scanChar c toks innum = (toks ++ [[c]], false) := by
  obtain hc | hc := hc <;> simp [scanChar, hc]

theorem scanChar_fill (toks : List (List Byte)) (innum : Bool) : scanChar 0x2E toks innum = (toks, false) := rfl

/-- The in-number flag is read at a digit only (R64). -/
theorem scanChar_innum {c : Byte} (hc : classOf c ≠ .hex) (toks : List (List Byte)) (innum : Bool) :
    scanChar c toks innum = scanChar c toks false := by
  unfold scanChar
  split
  · next h => exact (hc h).elim
  all_goals rfl

/-- Settles O51: the step is the scan passing one character. -/
theorem headerIsDiscardedUnscanned : Obligations.HeaderIsDiscardedUnscanned := by
  intro s sc c rest hs hbody hr hc hw
  rw [step_loadChar hs hr hw, loadChar_header rest s hbody hc]
  rfl

/-- Settles O52: each clause is one equation of R63's loop body. -/
theorem bodyCharactersMakeTokens : Obligations.BodyCharactersMakeTokens := by
  intro s sc c rest hs hbody hr hw
  have hstep (hc : classOf c = .hex ∨ classOf c = .op ∨ classOf c = .rsv) :
      step s = .next (s.withScan (some (passBodyChar c rest sc))) := by
    have hne : c ≠ 0x21 := by rintro rfl; revert hc; decide
    have hvalid : classOf c ≠ .invalid := by obtain h | h | h := hc <;> simp [h]
    rw [step_loadChar hs hr hw, loadChar_body rest s hbody hne hvalid]
  refine ⟨fun before text hc hinnum htoks => ?_, fun hc hinnum => ?_, fun hc => ?_⟩
  · rw [hstep (.inl hc), passBodyChar, hinnum, htoks, scanChar_digit_extends hc]; rfl
  · rw [hstep (.inl hc), passBodyChar, hinnum, scanChar_digit_starts hc]; rfl
  · rw [hstep (.inr hc), passBodyChar, scanChar_letter hc]; rfl

/-- Settles O53: the step is `failLoad` at the scan's offset. -/
theorem invalidCharacterFailsTheLoad : Obligations.InvalidCharacterFailsTheLoad := by
  intro s sc c rest hs hbody hr hc hw
  have hstep : step s = .next (failLoad .invalidCharacter sc.pos s) := by
    rw [step_loadChar hs hr hw, loadChar_invalid rest s hbody hc]
  exact ⟨_, hstep, rfl, rfl, rfl, rfl, rfl, rfl, rfl⟩

theorem wf_of_decodeToken {w : TokenWord} {i : Instr} (h : decodeToken w = .ok i) : i.wf = true :=
  ((tokenWordMeansOneToken w i).mp h).1

theorem withScan_self {s : State} {x : Option Scan} (h : s.scan = x) : s.withScan x = s := by
  subst h; rfl

/-- Settles O29: in the body the filler is met as its instruction, and no token word is a filler's. -/
theorem fillerEndsANumeral : Obligations.FillerEndsANumeral := by
  refine ⟨rfl, fun _ => rfl, fun w h => ?_, fun s sc hs => ?_, fun s hs => ?_, fun s sc rest hs hr hbody hw => ?_⟩
  · cases wf_of_decodeToken h
  · rw [exec_fill, hs]; rfl
  · rw [exec_fill, hs]; exact congrArg _ (withScan_self hs)
  · rw [step_loadChar hs hr hw, loadChar_fill rest s hbody]; rfl

/-- Settles O30: in the header and in the body the delimiter is met as its instruction. -/
theorem delimiterEndsTheHeader : Obligations.DelimiterEndsTheHeader := by
  refine ⟨rfl, fun _ => rfl, fun w h => ?_, fun s sc hs => ?_, fun s hs => ?_, fun s sc rest hs hr hw => ?_⟩
  · cases wf_of_decodeToken h
  · rw [exec_delim, hs]; rfl
  · rw [exec_delim, hs]; exact congrArg _ (withScan_self hs)
  · rw [step_loadChar hs hr hw, loadChar_delim]; rfl

/-! ## The body of a source -/

theorem zipIdx_ne_delim {text : List Byte} (h : 0x21 ∉ text) (n : Nat) : ∀ x ∈ text.zipIdx n, (x.1 != 0x21) = true :=
  fun _ hx => bne_iff_ne.mpr (ne_of_mem_of_not_mem (List.fst_mem_of_mem_zipIdx hx) h)

/-- The body behind the first delimiter, each character at its own offset (R60). -/
theorem bodyOf_append {header : List Byte} (h : 0x21 ∉ header) (lines : List Byte) :
    bodyOf (header ++ 0x21 :: lines) = (lines.zipIdx (header.length + 1)).filter fun x => x.1 != 0x21 := by
  rw [bodyOf, List.zipIdx_append, List.dropWhile_append_of_pos (zipIdx_ne_delim h 0)]
  simp

theorem bodyOf_eq_nil {src : List Byte} (h : 0x21 ∉ src) : bodyOf src = [] := by
  rw [bodyOf, List.dropWhile_eq_nil_iff.mpr (zipIdx_ne_delim h 0), List.filter_nil]

theorem bodyOf_sublist (src : List Byte) : (bodyOf src).Sublist src.zipIdx :=
  List.filter_sublist.trans (List.dropWhile_sublist _)

/-- Settles O55: the body is a sublist of the characters with their offsets, cut at the first delimiter. -/
theorem bodyIsTheSourceLessHeader : Obligations.BodyIsTheSourceLessHeader := by
  refine ⟨fun header lines h => ?_, fun _ => bodyOf_eq_nil, fun src c p h => ?_⟩
  · have hfst := List.filter_map (p := fun c : Byte => c != 0x21) (f := Prod.fst)
      (l := lines.zipIdx (header.length + 1))
    rw [bodyOf_append h]
    rw [List.zipIdx_map_fst] at hfst
    exact hfst.symm
  · exact List.mk_mem_zipIdx_iff_getElem?.mp ((bodyOf_sublist src).subset h)

/-! ## A `LOAD` step by step and the whole-source decoder -/

/-- The body characters a `LOAD` in progress has yet to read (R60). -/
def bodyAhead (sc : Scan) : List (Byte × Nat) :=
  (if sc.inBody then sc.rest.zipIdx sc.pos else (sc.rest.zipIdx sc.pos).dropWhile fun x => x.1 != 0x21).filter
    fun x => x.1 != 0x21

/-- What the whole-source decoder makes of them, from the tokens and the `INNUM` of the scan (R63). -/
def scanAhead (sc : Scan) : Except Nat (List (List Byte)) :=
  scanBody (bodyAhead sc) sc.toks sc.innum

theorem scanAhead_startScan (src : List Byte) : scanAhead (startScan src) = scanBody (bodyOf src) [] false := rfl

theorem scanAhead_nil {sc : Scan} (hr : sc.rest = []) : scanAhead sc = .ok sc.toks := by
  simp [scanAhead, bodyAhead, hr, scanBody]

section
variable {sc : Scan} {c : Byte} {rest : List Byte}

theorem scanAhead_delim (hr : sc.rest = 0x21 :: rest) :
    scanAhead (scanDelimiter (passChar rest sc)) = scanAhead sc := by
  simp [scanAhead, bodyAhead, scanDelimiter, hr]

theorem scanAhead_header (hr : sc.rest = c :: rest) (hbody : sc.inBody = false) (hc : c ≠ 0x21) :
    scanAhead (passChar rest sc) = scanAhead sc := by
  have hskip : ((sc.rest.zipIdx sc.pos).dropWhile fun x => x.1 != 0x21) =
      (rest.zipIdx (sc.pos + 1)).dropWhile fun x => x.1 != 0x21 := by
    rw [hr, List.zipIdx_cons]
    exact List.dropWhile_cons_of_pos (bne_iff_ne.mpr hc)
  rw [scanAhead, scanAhead, bodyAhead, bodyAhead, hskip, passChar_inBody, hbody]
  rfl

theorem bodyAhead_body (hr : sc.rest = c :: rest) (hbody : sc.inBody = true) (hc : c ≠ 0x21) :
    bodyAhead sc = (c, sc.pos) :: bodyAhead (passChar rest sc) := by
  rw [bodyAhead, bodyAhead, hr, passChar_inBody, hbody, List.zipIdx_cons]
  exact List.filter_cons_of_pos (bne_iff_ne.mpr hc)

theorem scanAhead_invalid (hr : sc.rest = c :: rest) (hbody : sc.inBody = true) (hc : classOf c = .invalid) :
    scanAhead sc = .error sc.pos := by
  have hne : c ≠ 0x21 := by rintro rfl; cases hc
  rw [scanAhead, bodyAhead_body hr hbody hne, scanBody, if_pos hc]

theorem scanAhead_body (hr : sc.rest = c :: rest) (hbody : sc.inBody = true) (hne : c ≠ 0x21)
    (hc : classOf c ≠ .invalid) : scanAhead (passBodyChar c rest sc) = scanAhead sc := by
  rw [scanAhead, scanAhead, bodyAhead_body hr hbody hne, scanBody, if_neg hc]
  rfl

end

/-- One character of a `LOAD` against the whole-source decoder: the `LOAD` fails where the decoder does, or what the
decoder makes of the characters ahead stays the same. -/
theorem loadChar_scanAhead {sc : Scan} {c : Byte} {rest : List Byte} (hr : sc.rest = c :: rest) (s : State) :
    (loadChar c rest sc s = .next (failLoad .invalidCharacter sc.pos s) ∧ scanAhead sc = .error sc.pos) ∨
    ∃ sc', loadChar c rest sc s = .next (s.withScan (some sc')) ∧ sc'.rest = rest ∧ sc'.pos = sc.pos + 1 ∧
      scanAhead sc' = scanAhead sc := by
  by_cases hdelim : c = 0x21
  · subst hdelim
    exact .inr ⟨_, loadChar_delim rest s, rfl, rfl, scanAhead_delim hr⟩
  cases hbody : sc.inBody with
  | false => exact .inr ⟨_, loadChar_header rest s hbody hdelim, rfl, rfl, scanAhead_header hr hbody hdelim⟩
  | true =>
    by_cases hc : classOf c = .invalid
    · exact .inl ⟨loadChar_invalid rest s hbody hc, scanAhead_invalid hr hbody hc⟩
    · exact .inr ⟨_, loadChar_body rest s hbody hdelim hc, rfl, rfl, scanAhead_body hr hbody hdelim hc⟩

/-- The end of a scan by what it reads of the scan: the tokens and the offset. -/
def endOfLoad (toks : List (List Byte)) (pos : Nat) (s : State) : State :=
  if overCapacity s.capacity toks.length then failLoad .programTooLong pos s
  else installProgram (toks.map tokenOfText) s

theorem finishLoad_eq (sc : Scan) (s : State) : finishLoad sc s = endOfLoad sc.toks sc.pos s := rfl

/-- A `LOAD` in progress runs to the end that the whole-source decoder gives it (R63). -/
theorem runFor_load {s : State} {sc : Scan} (hs : s.scan = some sc) (hw : waits s.host = true) :
    (∀ p, scanAhead sc = .error p →
      ∃ k, p = sc.pos + k ∧ runFor (k + 1) s = .next (failLoad .invalidCharacter p s)) ∧
    (∀ toks, scanAhead sc = .ok toks →
      runFor (sc.rest.length + 1) s = .next (endOfLoad toks (sc.pos + sc.rest.length) s)) := by
  induction hr : sc.rest generalizing s sc with
  | nil =>
    have hstep := step_finishLoad hs hr hw
    refine ⟨fun p h => ?_, fun toks h => ?_⟩ <;> rw [scanAhead_nil hr] at h <;> cases h
    rw [List.length_nil, runFor_succ_of_next hstep, finishLoad_eq]
    rfl
  | cons c rest ih =>
    have hstep := step_loadChar hs hr hw
    obtain ⟨hfail, herr⟩ | ⟨sc', hnext, hrest, hpos, hahead⟩ := loadChar_scanAhead hr s
    · refine ⟨fun p h => ?_, fun toks h => ?_⟩ <;> rw [herr] at h <;> cases h
      exact ⟨0, rfl, runFor_succ_of_next (hstep.trans hfail)⟩
    · obtain ⟨herror, hok⟩ := ih (s := s.withScan (some sc')) rfl hw hrest
      rw [hahead, hpos] at herror hok
      refine ⟨fun p h => ?_, fun toks h => ?_⟩
      · obtain ⟨k, hk, hrun⟩ := herror p h
        refine ⟨k + 1, by omega, ?_⟩
        rw [runFor_succ_of_next (hstep.trans hnext), hrun]
        rfl
      · rw [List.length_cons, runFor_succ_of_next (hstep.trans hnext), hok toks h, Nat.add_right_comm, Nat.add_assoc]
        rfl

/-- A `LOAD` that has just begun runs to the decoder's result on the whole source (R63). -/
theorem runFor_beginLoad {s : State} (hw : waits s.host = true) (src : List Byte) :
    (∀ p, scanBody (bodyOf src) [] false = .error p →
      runFor (p + 1) (beginLoad src s) = .next (failLoad .invalidCharacter p s)) ∧
    (∀ toks, scanBody (bodyOf src) [] false = .ok toks →
      runFor (src.length + 1) (beginLoad src s) = .next (endOfLoad toks src.length s)) := by
  obtain ⟨herror, hok⟩ := runFor_load (s := beginLoad src s) (sc := startScan src) rfl hw
  have hpos : (startScan src).pos = 0 := rfl
  rw [scanAhead_startScan, hpos] at herror hok
  rw [Nat.zero_add] at hok
  refine ⟨fun p h => ?_, hok⟩
  obtain ⟨k, hk, hrun⟩ := herror p h
  rw [Nat.zero_add] at hk
  exact hk ▸ hrun

theorem step_beginLoad {s : State} {m : HostMove} {more : List HostMove} {src : List Byte} (hs : s.scan = none)
    (hb : s.status ≠ .busy) (hh : s.host = m :: more) (hm : requestOf m = .load src) :
    step s = .next (beginLoad src { s with host := more }) := by
  have hrefusal : overlapRefusal s = none := by
    unfold overlapRefusal
    split
    · rw [if_neg hb, hs]; rfl
    · rfl
  simp only [step, cycle, hrefusal, hs, if_neg hb, serveHost, hh, hm]

theorem loadResult_of_error {src : List Byte} {p : Nat} (h : scanBody (bodyOf src) [] false = .error p)
    (capacity : Option Nat) : loadResult capacity src = .error (.invalidCharacter, p) := by
  rw [loadResult, h]

theorem loadResult_of_ok {src : List Byte} {toks : List (List Byte)} (h : scanBody (bodyOf src) [] false = .ok toks)
    (capacity : Option Nat) : loadResult capacity src =
      if overCapacity capacity toks.length then .error (.programTooLong, src.length)
      else .ok (toks.map tokenOfText) := by
  rw [loadResult, h]

/-- Settles O57: the step that begins the `LOAD`, then the run of its scan. -/
theorem loadRunsAsOneTransaction : Obligations.LoadRunsAsOneTransaction := by
  intro s m more src hs hb hh hm hw
  have hbegin := step_beginLoad hs hb hh hm
  obtain ⟨herror, hok⟩ := runFor_beginLoad (s := { s with host := more }) hw src
  cases hscan : scanBody (bodyOf src) [] false with
  | error p =>
    rw [loadResult_of_error hscan]
    exact (runFor_succ_of_next hbegin).trans (herror p hscan)
  | ok toks =>
    have hrun := (runFor_succ_of_next hbegin).trans (hok toks hscan)
    by_cases hover : overCapacity s.capacity toks.length = true
    · rw [loadResult_of_ok hscan, if_pos hover]
      rwa [endOfLoad, if_pos hover] at hrun
    · rw [loadResult_of_ok hscan, if_neg hover]
      rwa [endOfLoad, if_neg hover] at hrun

/-! ## The scan and the reading form by form -/

theorem scanBody_valid {c : Byte} (h : classOf c ≠ .invalid) (p : Nat) (more : List (Byte × Nat))
    (toks : List (List Byte)) (innum : Bool) :
    scanBody ((c, p) :: more) toks innum = scanBody more (scanChar c toks innum).1 (scanChar c toks innum).2 := by
  rw [scanBody, if_neg h]

theorem scanBody_digits {ds : List Byte} (h : ∀ d ∈ ds, classOf d = .hex) (n : Nat) (tail : List (Byte × Nat))
    (before : List (List Byte)) (text : List Byte) :
    scanBody (ds.zipIdx n ++ tail) (before ++ [text]) true = scanBody tail (before ++ [text ++ ds]) true := by
  induction ds generalizing n text with
  | nil => simp
  | cons d ds ih =>
    obtain ⟨hd, hds⟩ := List.forall_mem_cons.mp h
    rw [List.zipIdx_cons, List.cons_append, scanBody_valid (by simp [hd]), scanChar_digit_extends hd, ih hds,
      List.append_assoc, List.singleton_append]

/-- `INNUM` makes a difference only before a digit (R64, R65). -/
theorem scanBody_innum {body : List (Byte × Nat)} (h : ∀ x, body.head? = some x → classOf x.1 ≠ .hex)
    (toks : List (List Byte)) (innum : Bool) : scanBody body toks innum = scanBody body toks false := by
  cases body with
  | nil => rfl
  | cons x more => rw [scanBody, scanBody, scanChar_innum (h x rfl)]

/-- A run of digits that no digit follows becomes one token text (R65). -/
theorem scanBody_numeral {c : Byte} {ds tail : List Byte} (hc : classOf c = .hex) (hds : ∀ d ∈ ds, classOf d = .hex)
    (htail : ∀ d, tail.head? = some d → classOf d ≠ .hex) (n : Nat) (toks : List (List Byte)) :
    scanBody ((c :: (ds ++ tail)).zipIdx n) toks false =
      scanBody (tail.zipIdx (n + 1 + ds.length)) (toks ++ [c :: ds]) false := by
  rw [List.zipIdx_cons, scanBody_valid (by simp [hc]), scanChar_digit_starts hc, List.zipIdx_append,
    scanBody_digits hds, List.singleton_append]
  apply scanBody_innum
  intro x hx
  cases tail with
  | nil => cases hx
  | cons d tail => cases hx; exact htail d rfl

/-- The scan from the tokens `toks` and the reading form by form agree: the same new tokens, or both reject. -/
inductive Agree (toks : List (List Byte)) : Except Nat (List (List Byte)) → Except DecodeError (List Instr) → Prop where
  | tokens {new : List (List Byte)} {is : List Instr} (h : new.map tokenOfText = is.map tokenWord) :
      Agree toks (.ok (toks ++ new)) (.ok is)
  | rejects {p : Nat} : Agree toks (.error p) (.error .invalidCharacter)

theorem Agree.nil (toks : List (List Byte)) : Agree toks (.ok toks) (.ok []) := by
  simpa using Agree.tokens (toks := toks) (new := []) (is := []) rfl

theorem Agree.token {toks : List (List Byte)} {text : List Byte} {i : Instr} {scan : Except Nat (List (List Byte))}
    {read : Except DecodeError (List Instr)} (h : Agree (toks ++ [text]) scan read)
    (hi : tokenOfText text = tokenWord i) :
    Agree toks scan (read.map (i :: ·)) := by
  cases h with
  | @tokens new is h =>
    rw [List.append_assoc]
    exact .tokens (by simp [hi, h])
  | rejects => exact .rejects

theorem decodeTokens_token {c : Byte} {cs rest : List Byte} {i : Instr} (h : decode (c :: cs) = .ok (i, rest))
    (hwf : i.wf = true) (fuel : Nat) :
    decodeTokens (fuel + 1) (c :: cs) = (decodeTokens fuel rest).map (i :: ·) := by
  rw [decodeTokens, h]
  cases hd : decodeTokens fuel rest <;> simp [hd, hwf, Except.map]

theorem decodeTokens_noToken {c : Byte} {cs rest : List Byte} {i : Instr} (h : decode (c :: cs) = .ok (i, rest))
    (hwf : i.wf = false) (fuel : Nat) : decodeTokens (fuel + 1) (c :: cs) = decodeTokens fuel rest := by
  rw [decodeTokens, h]
  cases hd : decodeTokens fuel rest <;> simp [hd, hwf]

theorem agree_letter {c : Byte} (hc : classOf c = .op ∨ classOf c = .rsv) {cs : List Byte} {fuel n : Nat}
    {toks : List (List Byte)}
    (h : Agree (toks ++ [[c]]) (scanBody (cs.zipIdx (n + 1)) (toks ++ [[c]]) false) (decodeTokens fuel cs)) :
    Agree toks (scanBody ((c :: cs).zipIdx n) toks false) (decodeTokens (fuel + 1) (c :: cs)) := by
  obtain ⟨i, hi⟩ := letterOf_of_classOf hc
  have hvalid : classOf c ≠ .invalid := by obtain hc | hc := hc <;> simp [hc]
  rw [List.zipIdx_cons, scanBody_valid hvalid, scanChar_letter hc,
    decodeTokens_token (decode_letter hi cs) (wf_of_letterOf hi)]
  exact h.token (by rw [tokenWord, encode_of_letterOf hi])

theorem agree_numeral {c : Byte} (hc : classOf c = .hex) {ds tail : List Byte} (hds : ∀ d ∈ ds, classOf d = .hex)
    (htail : ∀ d, tail.head? = some d → classOf d ≠ .hex)
    (hdecode : decode (c :: (ds ++ tail)) = .ok (.lit (numeralWord (c :: ds)), tail)) {fuel n : Nat}
    {toks : List (List Byte)}
    (h : Agree (toks ++ [c :: ds]) (scanBody (tail.zipIdx (n + 1 + ds.length)) (toks ++ [c :: ds]) false)
      (decodeTokens fuel tail)) :
    Agree toks (scanBody ((c :: (ds ++ tail)).zipIdx n) toks false)
      (decodeTokens (fuel + 1) (c :: (ds ++ tail))) := by
  rw [scanBody_numeral hc hds htail, decodeTokens_token hdecode rfl]
  exact h.token (by rw [tokenWord_lit, tokenOfText, if_pos ((classOf_eq_hex_iff c).mp hc)])

/-- By the form at the front of the text (R71). -/
theorem scanBody_agrees {fuel : Nat} {text : List Byte} (hfuel : text.length ≤ fuel) (hdelim : 0x21 ∉ text) (n : Nat)
    (toks : List (List Byte)) : Agree toks (scanBody (text.zipIdx n) toks false) (decodeTokens fuel text) := by
  induction fuel generalizing text n toks with
  | zero =>
    rw [List.length_eq_zero_iff.mp (Nat.le_zero.mp hfuel)]
    exact .nil toks
  | succ fuel ih =>
    cases text with
    | nil => exact .nil toks
    | cons c cs =>
      have hne : 0x21 ≠ c := List.ne_of_not_mem_cons hdelim
      have hcs : 0x21 ∉ cs := List.not_mem_of_not_mem_cons hdelim
      have hlen : cs.length ≤ fuel := Nat.le_of_succ_le_succ hfuel
      cases hc : classOf c with
      | op => exact agree_letter (.inl hc) (ih hlen hcs _ _)
      | rsv => exact agree_letter (.inr hc) (ih hlen hcs _ _)
      | delim => exact (hne ((classOf_eq_delim_iff c).mp hc).symm).elim
      | fill =>
        rw [(classOf_eq_fill_iff c).mp hc, List.zipIdx_cons, scanBody_valid (by decide), scanChar_fill,
          decodeTokens_noToken (i := .fill) rfl rfl]
        exact ih hlen hcs _ _
      | invalid =>
        rw [List.zipIdx_cons, scanBody, if_pos hc, decodeTokens, decode_invalid hc]
        exact .rejects
      | hex =>
        obtain ⟨-, -, hnumeral⟩ := sourceFormsFound c cs
        obtain ⟨ds, tail, rfl, hds, htail, hdecode⟩ := hnumeral hc
        have htaillen : tail.length ≤ fuel := by rw [List.length_append] at hlen; omega
        exact agree_numeral hc hds htail hdecode (ih htaillen (mt (List.mem_append_right ds) hcs) _ _)

/-- Settles O58: the agreement from no tokens, with the text's length as fuel. -/
theorem scanAgreesWithReadingFormByForm : Obligations.ScanAgreesWithReadingFormByForm := by
  intro text hdelim
  have hagree := scanBody_agrees (Nat.le_refl text.length) hdelim 0 []
  generalize decodeTokens text.length text = read at hagree ⊢
  refine ⟨fun toks h => ?_, fun p h => ?_⟩ <;> rw [h] at hagree
  · cases hagree with
    | tokens hwords => exact ⟨_, rfl, hwords⟩
  · cases hagree with
    | rejects => rfl

end Sys2Proof.Machine

/-! # The machine: the invariant, `COMPUTE` as one transaction, and the two-operand operations (40_machine) -/

namespace Sys2Proof.Machine

/-! ## The token texts of a `LOAD` in progress -/

theorem textOk_digits {text : List Byte} (hne : text ≠ []) (h : text.all isHexDigit = true) : textOk text = true := by
  obtain ⟨c, cs, rfl⟩ := List.exists_cons_of_ne_nil hne
  rw [List.all_cons, Bool.and_eq_true] at h
  obtain ⟨hc, hcs⟩ := h
  rw [textOk, if_pos hc, hcs]

theorem textOk_letter {c : Byte} {i : Instr} (h : letterOf c = some i) : textOk [c] = true := by
  simp [textOk, isHexDigit_of_letterOf h, h]

/-- The text of a token becomes a word the dispatcher reads (R63, R91). -/
theorem tokenOk_tokenOfText {text : List Byte} (h : textOk text = true) : tokenOk (tokenOfText text) = true := by
  cases text with
  | nil => cases h
  | cons c cs =>
    by_cases hc : isHexDigit c = true
    · rw [tokenOfText, if_pos hc, tokenOk, decodeToken_litTokenWord]
    · rw [textOk, if_neg hc, Bool.and_eq_true, Option.isSome_iff_exists] at h
      obtain ⟨-, i, hi⟩ := h
      rw [tokenOfText, if_neg hc, opTokenWord, tokenOk, decodeToken_letter hi]

/-- Every text is a token's, and `INNUM` is 1 only behind a text of digits (R30, R63). -/
structure TextsOk (toks : List (List Byte)) (innum : Bool) : Prop where
  texts : ∀ text ∈ toks, textOk text = true
  number : innum = true → ∃ before text, toks = before ++ [text] ∧ text.all isHexDigit = true

theorem innumOk_iff (sc : Scan) : innumOk sc = true ↔
    (sc.innum = true → ∃ before text, sc.toks = before ++ [text] ∧ text.all isHexDigit = true) := by
  unfold innumOk
  cases List.eq_nil_or_concat sc.toks with
  | inl h => simp [h]
  | inr h =>
    obtain ⟨before, text, h⟩ := h
    simp [h, imp_iff_not_or]

theorem scanOk_iff (sc : Scan) :
    scanOk sc = true ↔ TextsOk sc.toks sc.innum ∧ (sc.inBody = true ∨ sc.toks = []) := by
  rw [scanOk, Bool.and_eq_true, Bool.and_eq_true, Bool.or_eq_true, List.all_eq_true, List.isEmpty_iff, innumOk_iff]
  exact ⟨fun ⟨⟨htexts, hnumber⟩, hheader⟩ => ⟨⟨htexts, hnumber⟩, hheader⟩,
    fun ⟨⟨htexts, hnumber⟩, hheader⟩ => ⟨⟨htexts, hnumber⟩, hheader⟩⟩

theorem TextsOk.noNumber {toks : List (List Byte)} {innum : Bool} (h : TextsOk toks innum) : TextsOk toks false :=
  ⟨h.texts, by simp⟩

theorem TextsOk.append {toks : List (List Byte)} {innum : Bool} {text : List Byte} (h : TextsOk toks innum)
    (htext : textOk text = true) : TextsOk (toks ++ [text]) false :=
  ⟨by simpa [or_imp, forall_and] using ⟨h.texts, htext⟩, by simp⟩

theorem TextsOk.inNumber {before : List (List Byte)} {text : List Byte} {innum : Bool}
    (h : TextsOk (before ++ [text]) innum) (hdigits : text.all isHexDigit = true) : TextsOk (before ++ [text]) true :=
  ⟨h.texts, fun _ => ⟨before, text, rfl, hdigits⟩⟩

/-- A digit extends the number in progress or starts one (R64). -/
theorem scanChar_digit_textsOk {c : Byte} (hc : classOf c = .hex) {toks : List (List Byte)} {innum : Bool}
    (h : TextsOk toks innum) : TextsOk (scanChar c toks innum).1 (scanChar c toks innum).2 := by
  have hdigit := (classOf_eq_hex_iff c).mp hc
  cases innum with
  | false =>
    rw [scanChar_digit_starts hc]
    exact (h.append (textOk_digits (by simp) (by simp [hdigit]))).inNumber (by simp [hdigit])
  | true =>
    obtain ⟨before, text, rfl, hdigits⟩ := h.number rfl
    have hlonger : (text ++ [c]).all isHexDigit = true := by simp [List.all_append, hdigits, hdigit]
    have hbefore : TextsOk before false := ⟨fun x hx => h.texts x (List.mem_append_left _ hx), by simp⟩
    rw [scanChar_digit_extends hc]
    exact (hbefore.append (textOk_digits (by simp) hlonger)).inNumber hlonger

/-- R63's loop body keeps the texts well formed. -/
theorem scanChar_textsOk {c : Byte} (hne : c ≠ 0x21) (hvalid : classOf c ≠ .invalid) {toks : List (List Byte)}
    {innum : Bool} (h : TextsOk toks innum) : TextsOk (scanChar c toks innum).1 (scanChar c toks innum).2 := by
  have hletter (hc : classOf c = .op ∨ classOf c = .rsv) :
      TextsOk (scanChar c toks innum).1 (scanChar c toks innum).2 := by
    obtain ⟨i, hi⟩ := letterOf_of_classOf hc
    rw [scanChar_letter hc]
    exact h.append (textOk_letter hi)
  cases hc : classOf c with
  | hex => exact scanChar_digit_textsOk hc h
  | op => exact hletter (.inl hc)
  | rsv => exact hletter (.inr hc)
  | fill =>
    rw [(classOf_eq_fill_iff c).mp hc, scanChar_fill]
    exact h.noNumber
  | delim => exact (hne ((classOf_eq_delim_iff c).mp hc)).elim
  | invalid => exact (hvalid hc).elim

/-- A character of a `LOAD` fails it, or leaves a scan that is well formed if the one before was. -/
theorem loadChar_scanOk (c : Byte) (rest : List Byte) {sc : Scan} (hsc : scanOk sc = true) (s : State) :
    loadChar c rest sc s = .next (failLoad .invalidCharacter sc.pos s) ∨
    ∃ sc', loadChar c rest sc s = .next (s.withScan (some sc')) ∧ scanOk sc' = true := by
  obtain ⟨htexts, hheader⟩ := (scanOk_iff sc).mp hsc
  by_cases hdelim : c = 0x21
  · subst hdelim
    exact .inr ⟨_, loadChar_delim rest s, (scanOk_iff _).mpr ⟨htexts, .inl rfl⟩⟩
  cases hbody : sc.inBody with
  | false => exact .inr ⟨_, loadChar_header rest s hbody hdelim, hsc⟩
  | true =>
    by_cases hc : classOf c = .invalid
    · exact .inl (loadChar_invalid rest s hbody hc)
    · exact .inr ⟨_, loadChar_body rest s hbody hdelim hc,
        (scanOk_iff _).mpr ⟨scanChar_textsOk hdelim hc htexts, .inl hbody⟩⟩

/-! ## The invariant -/

theorem overCapacity_zero (capacity : Option Nat) : overCapacity capacity 0 = false := by
  cases capacity <;> simp [overCapacity]

theorem failLoad_inv (cause : Cause) (pos : Nat) (s : State) : Inv (failLoad cause pos s) where
  tokens := rfl
  capacity := overCapacity_zero _
  busy h := by cases h
  unloaded _ _ := rfl
  loading _ h := by cases h

theorem installProgram_inv {prog : List TokenWord} {s : State} (htokens : prog.all tokenOk = true)
    (hcapacity : overCapacity s.capacity prog.length = false) : Inv (installProgram prog s) where
  tokens := htokens
  capacity := hcapacity
  busy h := by cases h
  unloaded h := by cases h
  loading _ h := by cases h

/-- The end of a well-formed scan: its texts become tokens, unless they are too many (R63). -/
theorem finishLoad_inv {sc : Scan} (hsc : scanOk sc = true) (s : State) : Inv (finishLoad sc s) := by
  obtain ⟨⟨htexts, -⟩, -⟩ := (scanOk_iff sc).mp hsc
  rw [finishLoad]
  split
  · exact failLoad_inv _ _ s
  · next hover =>
    refine installProgram_inv ?_ (by simpa using hover)
    rw [List.all_map, List.all_eq_true]
    exact fun text htext => tokenOk_tokenOfText (htexts text htext)

section
variable {s : State} (h : Inv s)
include h

theorem Inv.withScan {sc sc' : Scan} (hs : s.scan = some sc) (hsc : scanOk sc' = true) :
    Inv (s.withScan (some sc')) where
  tokens := h.tokens
  capacity := h.capacity
  busy hb := by
    obtain ⟨-, hnone, -⟩ := h.busy hb
    cases hs.symm.trans hnone
  unloaded _ hnone := by cases hnone
  loading x hx := by
    cases hx
    obtain ⟨hunloaded, -⟩ := h.loading sc hs
    exact ⟨hunloaded, hsc⟩

theorem Inv.beginLoad (src : List Byte) (more : List HostMove) : Inv (beginLoad src { s with host := more }) where
  tokens := h.tokens
  capacity := h.capacity
  busy hb := by cases hb
  unloaded _ hnone := by cases hnone
  loading sc hsc := by
    cases hsc
    exact ⟨rfl, rfl⟩

theorem Inv.beginCompute (hs : s.scan = none) (a : Int) (more : List HostMove) :
    Inv (beginCompute a { s with host := more }) where
  tokens := h.tokens
  capacity := h.capacity
  busy _ := ⟨Nat.zero_le _, hs, rfl⟩
  unloaded hu := by cases hu
  loading sc hsc := by cases hs.symm.trans hsc

theorem Inv.finishCompute (hs : s.scan = none) : Inv (finishCompute s) where
  tokens := h.tokens
  capacity := h.capacity
  busy hb := by cases hb
  unloaded hu := by cases hu
  loading sc hsc := by cases hs.symm.trans hsc

/-- A token moves only the stack file, `TOP` and `PC`, and `PC` was below `N` (R22, R90). -/
theorem Inv.token (x : Stack) (p : Index) (hlt : s.pc < s.prog.length) :
    Inv { s with stack := x, top := p, pc := s.pc + 1 } where
  tokens := h.tokens
  capacity := h.capacity
  busy hb := by
    obtain ⟨-, hrest⟩ := h.busy hb
    exact ⟨hlt, hrest⟩
  unloaded := h.unloaded
  loading := h.loading

end

theorem finishLoad_capacity (sc : Scan) (s : State) : (finishLoad sc s).capacity = s.capacity := by
  obtain h | h := finishLoad_cases sc s <;> rw [h] <;> rfl

/-- What a token may change (R22, R91): no token word is one of the two forms that act on a `LOAD`. -/
theorem exec_token_frame {w : TokenWord} {i : Instr} {s u : State} (hi : decodeToken w = .ok i)
    (he : exec i s = .next u) : u = { s with stack := u.stack, top := u.top } := by
  obtain ⟨-, -, hscan, hothers⟩ := exec_frame he
  rwa [hscan (wf_of_decodeToken hi)] at hothers

/-- Settles O46: by what the step does. -/
theorem everyStepKeepsTheInvariant : Obligations.EveryStepKeepsTheInvariant := by
  intro s t h hstep
  cases step_cases hstep with
  | loadEnds sc hs _ ht =>
    subst ht
    obtain ⟨-, hsc⟩ := h.loading sc hs
    exact ⟨finishLoad_inv hsc s, finishLoad_capacity sc s⟩
  | loads sc c rest hs _ ht =>
    obtain ⟨-, hsc⟩ := h.loading sc hs
    obtain hfail | ⟨sc', hnext, hsc'⟩ := loadChar_scanOk c rest hsc s
    · cases hfail.symm.trans ht
      exact ⟨failLoad_inv _ _ s, rfl⟩
    · cases hnext.symm.trans ht
      exact ⟨h.withScan hs hsc', rfl⟩
  | runs i w u _ _ hw hi he ht =>
    subst ht
    rw [exec_token_frame hi he]
    exact ⟨h.token _ _ (List.getElem?_eq_some_iff.mp hw).1, rfl⟩
  | computeEnds hs _ _ ht => subst ht; exact ⟨h.finishCompute hs, rfl⟩
  | idles _ _ _ ht => subst ht; exact ⟨h, rfl⟩
  | loadBegins m more src _ _ _ _ ht => subst ht; exact ⟨h.beginLoad src more, rfl⟩
  | computeBegins m more a hs _ _ _ ht => subst ht; exact ⟨h.beginCompute hs a more, rfl⟩

/-! ## The steps of a `COMPUTE` -/

theorem overlapRefusal_of_idle {s : State} (hs : s.scan = none) (hb : s.status ≠ .busy) : overlapRefusal s = none := by
  unfold overlapRefusal
  split
  · rw [if_neg hb, hs]; rfl
  · rfl

theorem step_beginCompute {s : State} {m : HostMove} {more : List HostMove} {a : Int} (hs : s.scan = none)
    (hr : s.status = .ready) (hh : s.host = m :: more) (hm : requestOf m = .compute a) :
    step s = .next (beginCompute a { s with host := more }) := by
  have hb : s.status ≠ .busy := by simp [hr]
  simp only [step, cycle, overlapRefusal_of_idle hs hb, hs, if_neg hb, serveHost, hh, hm, if_pos hr]

/-- Settles O38: the step is `beginCompute`. -/
theorem computeBegins : Obligations.ComputeBegins :=
  fun _ _ _ _ => step_beginCompute

theorem step_stepCompute {s : State} (hs : s.scan = none) (hb : s.status = .busy) (hw : waits s.host = true) :
    step s = stepCompute s := by
  simp only [step, cycle, overlapRefusal_of_waits hw, hs, if_pos hb]

theorem step_runToken {s : State} {w : TokenWord} (hs : s.scan = none) (hb : s.status = .busy)
    (hw : waits s.host = true) (hword : s.prog[s.pc]? = some w) : step s = runToken w s := by
  rw [step_stepCompute hs hb hw, stepCompute, hword]

theorem step_finishCompute {s : State} (hs : s.scan = none) (hb : s.status = .busy) (hw : waits s.host = true)
    (hpc : s.prog.length ≤ s.pc) : step s = .next (finishCompute s) := by
  rw [step_stepCompute hs hb hw, stepCompute, List.getElem?_eq_none hpc]

theorem runToken_of_decodeToken {w : TokenWord} {i : Instr} (h : decodeToken w = .ok i) (s : State) :
    runToken w s = advancePc (exec i s) := by
  rw [runToken, h]

/-- Settles O37: the step is the token's run, and `advancePc` adds the 1. -/
theorem stepRunsTheDecodedToken : Obligations.StepRunsTheDecodedToken := by
  intro s w i hs hb hw hword hi
  rw [step_runToken hs hb hw hword, runToken_of_decodeToken hi]
  rfl

/-- R43, R97: the low byte. -/
theorem windowByte_eq_mod (s : State) : windowByte s = BitVec.ofNat 8 ((readEntry s s.top).toNat % 256) := by
  apply BitVec.eq_of_toNat_eq
  simp [windowByte]

/-- Settles O39: the step is `finishCompute`, with the window byte as a remainder. -/
theorem computeEndsWithTheWindowByte : Obligations.ComputeEndsWithTheWindowByte := by
  intro s hs hb hw hpc
  rw [step_finishCompute hs hb hw hpc, finishCompute, windowByte_eq_mod]

/-! ## The tokens of a `COMPUTE`, one after the other -/

/-- R190: no instruction stops the machine. -/
theorem exec_completes (i : Instr) (s : State) : ∃ u, exec i s = .next u := by
  cases i <;> exact ⟨_, rfl⟩

theorem runToken_of_tokenOk {w : TokenWord} (h : tokenOk w = true) (s : State) : ∃ t, runToken w s = .next t := by
  unfold tokenOk at h
  split at h
  · next i hi =>
    obtain ⟨u, hu⟩ := exec_completes i s
    exact ⟨_, by rw [runToken_of_decodeToken hi, hu, advancePc]⟩
  · cases h

theorem runToken_frame {w : TokenWord} {s t : State} (h : runToken w s = .next t) :
    t = { s with stack := t.stack, top := t.top, pc := s.pc + 1 } := by
  obtain ⟨i, u, hi, he, rfl⟩ := runToken_next h
  rw [exec_token_frame hi he]
  rfl

theorem runTokens_cons_of_next {w : TokenWord} {s t : State} (h : runToken w s = .next t) (ws : List TokenWord) :
    runTokens (w :: ws) s = runTokens ws t := by
  rw [runTokens, h]

/-- A running `COMPUTE` that no request overlaps runs all its tokens, one a step, and they change only the stack file,
`TOP` and `PC` (R90, R95). -/
theorem runFor_runTokens {ws : List TokenWord} {s : State} (hs : s.scan = none) (hb : s.status = .busy)
    (hw : waits s.host = true) (hprog : s.prog.drop s.pc = ws) (hok : ws.all tokenOk = true) :
    ∃ u, runTokens ws s = .next u ∧ runFor ws.length s = .next u ∧
      u = { s with stack := u.stack, top := u.top, pc := s.pc + ws.length } := by
  induction ws generalizing s with
  | nil => exact ⟨s, rfl, rfl, rfl⟩
  | cons w ws ih =>
    rw [List.all_cons, Bool.and_eq_true] at hok
    obtain ⟨hword, hwords⟩ := hok
    obtain ⟨t, ht⟩ := runToken_of_tokenOk hword s
    have hframe := runToken_frame ht
    have hpc : s.prog[s.pc]? = some w := by rw [← List.head?_drop, hprog]; rfl
    have htail : s.prog.drop (s.pc + 1) = ws := by rw [← List.tail_drop, hprog]; rfl
    obtain ⟨u, hu, hrun, huframe⟩ := ih (s := t) (by rw [hframe]; exact hs) (by rw [hframe]; exact hb)
      (by rw [hframe]; exact hw) (by rw [hframe]; exact htail) hwords
    refine ⟨u, (runTokens_cons_of_next ht ws).trans hu, ?_, ?_⟩
    · rw [List.length_cons, runFor_succ_of_next ((step_runToken hs hb hw hpc).trans ht), hrun]
    · rw [huframe, hframe, List.length_cons, Nat.add_right_comm, Nat.add_assoc]

theorem computeTransaction_of_runTokens {a : Int} {s u : State} (h : runTokens s.prog (beginCompute a s) = .next u) :
    computeTransaction a s = .next (finishCompute u) := by
  rw [computeTransaction, h]

/-- Settles O40: the step that begins the `COMPUTE`, the tokens, and the step that ends it. -/
theorem computeRunsAsOneTransaction : Obligations.ComputeRunsAsOneTransaction := by
  intro s m more a hs hr hok hh hm hw
  have hbegin := step_beginCompute hs hr hh hm
  obtain ⟨u, hu, hrun, hframe⟩ :=
    runFor_runTokens (ws := s.prog) (s := beginCompute a { s with host := more }) hs rfl hw rfl hok
  have hend : step u = .next (finishCompute u) := by
    rw [hframe]
    exact step_finishCompute hs rfl hw (Nat.le_add_left _ _)
  refine ⟨finishCompute u, computeTransaction_of_runTokens hu, ?_, rfl, ?_, rfl, rfl, ?_, ?_⟩
  · rw [runFor_succ_of_next hbegin, runFor_add hrun, runFor_succ_of_next hend, runFor_zero]
  · rw [hframe]; exact Nat.zero_add _
  · rw [hframe]; rfl
  · rw [hframe]; rfl

/-! ## What the result of a `COMPUTE` depends on -/

/-- The same stack file, `TOP`, `PROG`, `PC` and `T`: what the tokens of a `COMPUTE` read and write (R99). -/
structure SameRun (s r : State) : Prop where
  stack : s.stack = r.stack
  top : s.top = r.top
  prog : s.prog = r.prog
  pc : s.pc = r.pc
  t : s.t = r.t

/-- The same at the end of a `COMPUTE`, with the result and where it stands. -/
structure SameResult (s r : State) : Prop extends SameRun s r where
  out : s.out = r.out
  status : s.status = r.status
  reply : s.reply = r.reply

/-- Two outcomes of one kind, the next states related by `R`. -/
inductive SameOutcome (R : State → State → Prop) :
    Host.Outcome State Fault Refusal → Host.Outcome State Fault Refusal → Prop where
  | next {s r : State} (h : R s r) : SameOutcome R (.next s) (.next r)
  | fault (f : Fault) : SameOutcome R (.fault f) (.fault f)
  | refused (f : Refusal) : SameOutcome R (.refused f) (.refused f)

/-- No instruction reads another register than those of `SameRun` on the way to them. -/
theorem exec_sameRun (i : Instr) {s r : State} (h : SameRun s r) : SameOutcome SameRun (exec i s) (exec i r) := by
  cases s
  cases r
  obtain ⟨rfl, rfl, rfl, rfl, rfl⟩ := h
  cases i <;> exact .next ⟨rfl, rfl, rfl, rfl, rfl⟩

theorem SameOutcome.advancePc {x y : Host.Outcome State Fault Refusal} (h : SameOutcome SameRun x y) :
    SameOutcome SameRun (advancePc x) (advancePc y) := by
  cases h with
  | next hu => exact .next ⟨hu.stack, hu.top, hu.prog, congrArg (· + 1) hu.pc, hu.t⟩
  | fault f => exact .fault f
  | refused f => exact .refused f

theorem runToken_sameRun (w : TokenWord) {s r : State} (h : SameRun s r) :
    SameOutcome SameRun (runToken w s) (runToken w r) := by
  unfold runToken
  split
  · exact (exec_sameRun _ h).advancePc
  · exact .fault _

theorem runTokens_sameRun (ws : List TokenWord) {s r : State} (h : SameRun s r) :
    SameOutcome SameRun (runTokens ws s) (runTokens ws r) := by
  induction ws generalizing s r with
  | nil => exact .next h
  | cons w ws ih =>
    have hword := runToken_sameRun w h
    unfold runTokens
    generalize runToken w s = x, runToken w r = y at hword
    cases hword with
    | next hu => exact ih hu
    | fault f => exact .fault f
    | refused f => exact .refused f

theorem finishCompute_sameResult {s r : State} (h : SameRun s r) : SameResult (finishCompute s) (finishCompute r) := by
  have hbyte : windowByte s = windowByte r := by
    simp only [windowByte, readEntry, h.stack, h.top]
  exact { h with out := hbyte, status := rfl, reply := congrArg (fun b => some (Reply.sample b)) hbyte }

/-- R27, D3: the latch holds the argument modulo 2^32. -/
theorem beginCompute_sameRun {a b : Int} {s r : State} (hstack : s.stack = r.stack) (htop : s.top = r.top)
    (hprog : s.prog = r.prog) (hab : a % 2 ^ 32 = b % 2 ^ 32) : SameRun (beginCompute a s) (beginCompute b r) := by
  have hlatch : BitVec.ofInt 32 a = BitVec.ofInt 32 b := by
    apply BitVec.eq_of_toNat_eq
    rw [BitVec.toNat_ofInt, BitVec.toNat_ofInt]
    exact congrArg Int.toNat hab
  exact ⟨hstack, htop, hprog, rfl, hlatch⟩

theorem computeTransaction_sameResult {a b : Int} {s r : State} (hstack : s.stack = r.stack) (htop : s.top = r.top)
    (hprog : s.prog = r.prog) (hab : a % 2 ^ 32 = b % 2 ^ 32) :
    SameOutcome SameResult (computeTransaction a s) (computeTransaction b r) := by
  have htokens := runTokens_sameRun s.prog (beginCompute_sameRun hstack htop hprog hab)
  unfold computeTransaction
  rw [← hprog]
  generalize runTokens s.prog (beginCompute a s) = x, runTokens s.prog (beginCompute b r) = y at htokens
  cases htokens with
  | next hu => exact .next (finishCompute_sameResult hu)
  | fault f => exact .fault f
  | refused f => exact .refused f

theorem samples_same (ts : List Int) {s r : State} (hstack : s.stack = r.stack) (htop : s.top = r.top)
    (hprog : s.prog = r.prog) : samples ts s = samples ts r := by
  induction ts generalizing s r with
  | nil => rfl
  | cons t ts ih =>
    have hfirst := computeTransaction_sameResult (a := t) hstack htop hprog rfl
    unfold samples
    generalize computeTransaction t s = x, computeTransaction t r = y at hfirst
    cases hfirst with
    | next hu => simp only [ih hu.stack hu.top hu.prog, hu.out]
    | fault f => rfl
    | refused f => rfl

/-- Settles O41: one `COMPUTE` leaves the same result, and so does one after the other. -/
theorem resultDependsOnlyOnStackProgramAndTime : Obligations.ResultDependsOnlyOnStackProgramAndTime := by
  refine ⟨fun a b s r s' hstack htop hprog hab hs => ?_, fun prog s r ts => samples_same ts rfl rfl rfl⟩
  have hsame := computeTransaction_sameResult hstack htop hprog hab
  rw [hs] at hsame
  generalize computeTransaction b r = out at hsame ⊢
  cases hsame with
  | @next _ r' h => exact ⟨r', rfl, h.stack, h.top, h.prog, h.out, h.t, h.pc, h.status, h.reply⟩

/-! ## The two-operand operations -/

theorem truthValue_toNat (p : Prop) [Decidable p] :
    ((truthValue (decide p)).toNat : Int) = if p then 0xFFFFFFFF else 0 := by
  by_cases h : p <;> simp [truthValue, h]

/-- A two-operand operation pushes its table entry's result (R94). -/
theorem exec_of_binaryResult {i : Instr} {r : Int} {s : State}
    (h : binaryResult i (secondOperand s) (firstOperand s) = some r) : exec i s = afterBinary s r := by
  cases i with
  | mul => cases h; rw [exec_mul, Int.mul_comm]
  | div => cases h; exact exec_div s
  | add => cases h; exact exec_add s
  | sub => cases h; exact exec_sub s
  | mod => cases h; exact exec_mod s
  | lshift => cases h; rw [exec_lshift]; push_cast; rfl
  | rshift => cases h; rw [exec_rshift]; push_cast; rfl
  | and => cases h; exact exec_and s
  | or => cases h; exact exec_or s
  | xor => cases h; exact exec_xor s
  | lt => cases h; rw [exec_lt, truthValue_toNat]
  | gt => cases h; rw [exec_gt, truthValue_toNat]
  | eq => cases h; rw [exec_eq, truthValue_toNat]
  | _ => cases h

/-- Settles O31: a store at `dec8(TOP)` and a move of `TOP` there. -/
theorem binaryOperationsNetEffect : Obligations.BinaryOperationsNetEffect := by
  intro i r s h
  have hother {b : Index} (hb : b ≠ dec8 s.top) :
      readEntry (writeEntry (dec8 s.top) (BitVec.ofInt 32 r) (s.withTop (dec8 s.top))) b = readEntry s b :=
    readEntry_writeEntry_other hb
  refine ⟨_, exec_of_binaryResult h, rfl, ?_, hother (dec8_ne s.top).symm, fun _ => hother, fun htop => ?_⟩
  · rw [readEntry_writeEntry_same, BitVec.toNat_ofInt]
    omega
  · rw [writeEntry_top, State.withTop_top, htop]
    rfl

end Sys2Proof.Machine

/-! # The stack operations LIT, DROP, DUP and SWAP, and the pairs that restore the state (41_stack_ops, 44_bitwise) -/

namespace Sys2Proof.Machine

/-! ## States that differ in the stack file only -/

/-- Two states that differ in the stack file at most and read alike at every index are one. -/
theorem eq_of_readEntry {s t : State} (hothers : t = { s with stack := t.stack })
    (hentries : ∀ i, readEntry t i = readEntry s i) : t = s := by
  rw [hothers, stack_ext hentries]

/-- Of two writes at one index only the last one stays. -/
theorem writeEntry_writeEntry_same (s : State) (i : Index) (v w : Word) :
    writeEntry i w (writeEntry i v s) = writeEntry i w s :=
  congrArg s.withStack (Vector.set_set ..)

/-! ## LIT -/

/-- The token word of a run of digits is the literal's (R63, R75). -/
theorem tokenOfText_numeral {ds : List Byte} (hne : ds ≠ []) (hds : ∀ d ∈ ds, isHexDigit d = true) :
    tokenOfText ds = litTokenWord (numeralWord ds) := by
  obtain ⟨c, cs, rfl⟩ := List.exists_cons_of_ne_nil hne
  exact if_pos (hds c List.mem_cons_self)

/-- Settles O7: the decoder reads the run as one numeral, and LIT is one store at the new top. -/
theorem litPushesItsValue : Obligations.LitPushesItsValue := by
  refine ⟨fun ds tail hne hds htail => ?_, fun v s => ⟨_, exec_lit s v, writesOne_writeEntry ..⟩⟩
  have hdigits : ∀ d ∈ ds, isHexDigit d = true := fun d hd => (classOf_eq_hex_iff d).mp (hds d hd)
  have hstop : ∀ d, tail.head? = some d → isHexDigit d = false := by simpa [classOf_eq_hex_iff] using htail
  exact ⟨decode_numeral hne hdigits hstop, by rw [tokenOfText_numeral hne hdigits, decodeToken_litTokenWord]⟩

/-! ## DROP, DUP and SWAP -/

/-- Settles O9: a pop is a move of `TOP`. -/
theorem dropMovesOnlyTop : Obligations.DropMovesOnlyTop := ⟨.of_letter rfl rfl, exec_drop⟩

/-- Settles O10: the first push of DUP rewrites the old top with its own value, so one store is left. -/
theorem dupCopiesTheTop : Obligations.DupCopiesTheTop :=
  ⟨.of_letter rfl rfl, fun s => ⟨_, exec_dup s, writesOne_writeEntry ..⟩⟩

/-- Settles O11: two stores at two different indices. -/
theorem swapExchangesTheTopTwo : Obligations.SwapExchangesTheTopTwo := by
  refine ⟨.of_letter rfl rfl, fun s =>
    ⟨_, exec_swap s, rfl, ?_, readEntry_writeEntry_same .., fun b htop hdec => ?_, rfl⟩⟩
  · rw [readEntry_writeEntry_other (dec8_ne s.top), readEntry_writeEntry_same]
  · rw [readEntry_writeEntry_other htop, readEntry_writeEntry_other hdec]

/-! ## The pairs that restore the state -/

/-- A second exchange of the top two entries puts each back (R114). -/
theorem exec_swap_swap (s : State) : ∃ u, exec .swap s = .next u ∧ exec .swap u = .next s := by
  obtain ⟨-, hswap⟩ := swapExchangesTheTopTwo
  obtain ⟨u, hu, hutop, hubelow, huat, huelse, huothers⟩ := hswap s
  obtain ⟨t, ht, -, htbelow, htat, htelse, htothers⟩ := hswap u
  rw [hutop] at htbelow htat htelse
  have hothers : t = { s with stack := t.stack } := by rw [htothers, huothers]
  have hentries (i : Index) : readEntry t i = readEntry s i := by
    by_cases htop : i = s.top
    · rw [htop, htat, hubelow]
    by_cases hdec : i = dec8 s.top
    · rw [hdec, htbelow, huat]
    · rw [htelse i htop hdec, huelse i htop hdec]
  exact ⟨u, hu, eq_of_readEntry hothers hentries ▸ ht⟩

/-- `0xFFFFFFFF - v` is the complement of `v` (R165). -/
theorem ofInt_allOnes_sub_toNat (v : Word) : BitVec.ofInt 32 (0xFFFFFFFF - (v.toNat : Int)) = ~~~v := by
  apply BitVec.eq_of_toNat_eq
  rw [BitVec.toNat_ofInt, BitVec.toNat_not]
  omega

/-- NOT stores the complement of the top entry in its place (R165). -/
theorem exec_not_complement (s : State) :
    exec .not s = .next (writeEntry s.top (~~~(readEntry s s.top)) s) := by
  rw [exec_not, ofInt_allOnes_sub_toNat]

/-- The second complement is the value itself, and its store replaces the first (R165). -/
theorem exec_not_not (s : State) : ∃ u, exec .not s = .next u ∧ exec .not u = .next s := by
  refine ⟨_, exec_not_complement s, ?_⟩
  rw [exec_not_complement, writeEntry_top, readEntry_writeEntry_same, BitVec.not_not, writeEntry_writeEntry_same,
    writeEntry_self]

/-- DROP takes `TOP` back from DUP's copy and leaves the copy there (R112, R113). -/
theorem exec_dup_drop (s : State) : ∃ u t, exec .dup s = .next u ∧ exec .drop u = .next t ∧ t.top = s.top ∧
    readEntry t t.top = readEntry s s.top ∧ readEntry t (inc8 s.top) = readEntry s s.top := by
  refine ⟨_, _, exec_dup s, exec_drop _, dec8_inc8 s.top, ?_, readEntry_writeEntry_same ..⟩
  simp [readEntry_writeEntry_other (inc8_ne s.top).symm]

/-- Settles O36: pair by pair. -/
theorem pairsThatRestore : Obligations.PairsThatRestore := fun s => ⟨exec_swap_swap s, exec_not_not s, exec_dup_drop s⟩

end Sys2Proof.Machine

/-! # PICK (42_indirect) -/

namespace Sys2Proof.Machine

/-- Settles O14: PICK is one store at `TOP`, and the index it reads is the formula of R41 under the bias 1. -/
theorem pickReadsBelowTheTop : Obligations.PickReadsBelowTheTop :=
  ⟨.of_letter rfl rfl, fun s => ⟨_, exec_pick s, ind_eq_emod 1 s ▸ writesOne_writeEntry s s.top ..⟩⟩

end Sys2Proof.Machine

/-! # Arithmetic: MUL, DIV, ADD, SUB and MOD (43_arithmetic) -/

namespace Sys2Proof.Machine

/-! ## The result of a two-operand operation -/

/-- An instruction that pushes the exact result `r` of its two operands stores `r` modulo 2^32 and nothing else (R94). -/
theorem writesOne_of_afterBinary {i : Instr} {s : State} {r : Int} {v : Word} (h : exec i s = afterBinary s r)
    (hv : BitVec.ofInt 32 r = v) : ∃ t, exec i s = .next t ∧ WritesOne s t (dec8 s.top) (dec8 s.top) v :=
  ⟨_, h, hv ▸ writesOne_writeEntry ..⟩

/-- The stored word is the non-negative residue of the exact result (R92). -/
theorem toNat_ofInt_eq_emod (r : Int) : ((BitVec.ofInt 32 r).toNat : Int) = r % 2 ^ 32 := by
  rw [BitVec.toNat_ofInt]
  omega

theorem ofInt_ite_zero (p : Prop) [Decidable p] (n : Nat) :
    BitVec.ofInt 32 (if p then 0 else (n : Int)) = if p then 0 else BitVec.ofNat 32 n := by
  rw [apply_ite (BitVec.ofInt 32), BitVec.ofInt_natCast]
  rfl

/-! ## The five instructions -/

/-- Settles O15: the exact product is a natural number, kept modulo 2^32. -/
theorem mulKeepsLowBits : Obligations.MulKeepsLowBits :=
  ⟨.of_letter rfl rfl, fun s => writesOne_of_afterBinary (exec_mul s) (BitVec.ofInt_natCast ..)⟩

/-- Settles O16: branch by branch, the exact result is 0 or the quotient. -/
theorem divIsZeroOnZeroDivisor : Obligations.DivIsZeroOnZeroDivisor :=
  ⟨.of_letter rfl rfl, fun s => writesOne_of_afterBinary (exec_div s) (ofInt_ite_zero ..)⟩

/-- Settles O17: the exact sum is a natural number, kept modulo 2^32. -/
theorem addWraps : Obligations.AddWraps :=
  ⟨.of_letter rfl rfl, fun s => writesOne_of_afterBinary (exec_add s) (BitVec.ofInt_natCast ..)⟩

/-- Settles O18: the exact difference may be negative; what is stored is its residue. -/
theorem subTakesTopFromBelow : Obligations.SubTakesTopFromBelow := by
  refine ⟨.of_letter rfl rfl, fun s => ?_⟩
  obtain ⟨t, ht, hwrites⟩ := writesOne_of_afterBinary (exec_sub s) rfl
  refine ⟨t, ht, hwrites, ?_⟩
  obtain ⟨-, hvalue, -⟩ := hwrites
  rw [hvalue, toNat_ofInt_eq_emod]

/-- Settles O19: branch by branch, the exact result is 0 or the remainder. -/
theorem modIsZeroOnZeroDivisor : Obligations.ModIsZeroOnZeroDivisor :=
  ⟨.of_letter rfl rfl, fun s => writesOne_of_afterBinary (exec_mod s) (ofInt_ite_zero ..)⟩

/-! ## DIV and MOD together -/

/-- Settles O34: quotient and remainder both fit in a word, so they are exact and the division law of `Nat` holds. -/
theorem divModEuclidean : Obligations.DivModEuclidean := by
  intro s
  obtain ⟨-, hdiv⟩ := divIsZeroOnZeroDivisor
  obtain ⟨-, hmod⟩ := modIsZeroOnZeroDivisor
  obtain ⟨q, hq, -, hquotient, -⟩ := hdiv s
  obtain ⟨r, hr, -, hremainder, -⟩ := hmod s
  refine ⟨q, r, hq, hr, fun hne => ?_, fun hzero => ?_⟩
  · rw [if_neg hne, ← BitVec.udiv_def] at hquotient
    rw [if_neg hne, ← BitVec.umod_def] at hremainder
    rw [hquotient, hremainder, BitVec.toNat_udiv, BitVec.toNat_umod]
    exact ⟨(Nat.div_add_mod ..).symm, Nat.mod_lt _ (Nat.pos_of_ne_zero (BitVec.toNat_ne.mp hne))⟩
  · rw [if_pos hzero] at hquotient hremainder
    exact ⟨hquotient, hremainder⟩

end Sys2Proof.Machine

/-! # Shifts and bitwise instructions: LSHIFT, RSHIFT, AND, OR, XOR and NOT (44_bitwise) -/

namespace Sys2Proof.Machine

/-! ## The shifts -/

/-- A shift pushes an exact number for a count below 32 and 0 for any other (R160, R161). -/
theorem ofInt_ite_else_zero (p : Prop) [Decidable p] (n : Nat) :
    BitVec.ofInt 32 (if p then (n : Int) else 0) = if p then BitVec.ofNat 32 n else 0 := by
  simpa only [ite_not] using ofInt_ite_zero (¬p) n

/-- Settles O20: branch by branch, the exact result is the multiple by `2^v1`, kept modulo 2^32, or 0. -/
theorem lshiftIsZeroFromThirtyTwo : Obligations.LshiftIsZeroFromThirtyTwo :=
  ⟨.of_letter rfl rfl, fun s => writesOne_of_afterBinary (exec_lshift s) (ofInt_ite_else_zero ..)⟩

/-- Settles O21: branch by branch, the exact result is the quotient by `2^v1` or 0. -/
theorem rshiftIsZeroFromThirtyTwo : Obligations.RshiftIsZeroFromThirtyTwo :=
  ⟨.of_letter rfl rfl, fun s => writesOne_of_afterBinary (exec_rshift s) (ofInt_ite_else_zero ..)⟩

/-! ## AND, OR and XOR -/

/-- An instruction that pushes the word `v`, made of its two operands, stores `v` and nothing else: `push` reduces a word
to itself (R92, R94). -/
theorem writesOne_of_afterBinary_word {i : Instr} {s : State} {v : Word} (h : exec i s = afterBinary s v.toNat) :
    ∃ t, exec i s = .next t ∧ WritesOne s t (dec8 s.top) (dec8 s.top) v :=
  writesOne_of_afterBinary h (by rw [BitVec.ofInt_natCast, BitVec.ofNat_toNat, BitVec.setWidth_eq])

/-- Settles O22: the result is a word, so it is stored as it is. -/
theorem andIsBitwise : Obligations.AndIsBitwise :=
  ⟨.of_letter rfl rfl, fun s => writesOne_of_afterBinary_word (exec_and s)⟩

/-- Settles O23: the result is a word, so it is stored as it is. -/
theorem orIsBitwise : Obligations.OrIsBitwise :=
  ⟨.of_letter rfl rfl, fun s => writesOne_of_afterBinary_word (exec_or s)⟩

/-- Settles O24: the result is a word, so it is stored as it is. -/
theorem xorIsBitwise : Obligations.XorIsBitwise :=
  ⟨.of_letter rfl rfl, fun s => writesOne_of_afterBinary_word (exec_xor s)⟩

/-! ## NOT -/

/-- The subtraction of R165 does not borrow, so over the naturals too it is the complement. -/
theorem ofNat_allOnes_sub_toNat (v : Word) : BitVec.ofNat 32 (0xFFFFFFFF - v.toNat) = ~~~v := by
  apply BitVec.eq_of_toNat_eq
  rw [BitVec.toNat_ofNat, BitVec.toNat_not]
  omega

/-- Settles O25: NOT is one store at `TOP`, of the complement. -/
theorem notComplementsTheTop : Obligations.NotComplementsTheTop := by
  refine ⟨.of_letter rfl rfl, fun s => ⟨_, exec_not_complement s, ?_, readEntry_writeEntry_same ..⟩⟩
  rw [ofNat_allOnes_sub_toNat]
  exact writesOne_writeEntry s s.top ..

end Sys2Proof.Machine

/-! # The comparisons LT and EQ (45_compare) -/

namespace Sys2Proof.Machine

/-- What a comparison pushes is all ones where its relation holds, and 0 where it does not (R180, R182). -/
theorem truthValue_decide (p : Prop) [Decidable p] : truthValue (decide p) = if p then 0xFFFFFFFF else 0 := by
  by_cases h : p <;> simp [truthValue, h]

/-- An instruction that pushes whether `p` holds of its two operands stores all ones or 0 and nothing else. -/
theorem writesOne_of_afterBinary_truthValue {i : Instr} {s : State} {p : Prop} [Decidable p]
    (h : exec i s = afterBinary s (truthValue (decide p)).toNat) :
    ∃ t, exec i s = .next t ∧ WritesOne s t (dec8 s.top) (dec8 s.top) (if p then 0xFFFFFFFF else 0) :=
  truthValue_decide p ▸ writesOne_of_afterBinary_word h

/-- Settles O26: the relation is the order of the operands' values as natural numbers. -/
theorem ltIsUnsigned : Obligations.LtIsUnsigned :=
  ⟨.of_letter rfl rfl, fun s => writesOne_of_afterBinary_truthValue (exec_lt s)⟩

/-- Settles O28: the relation is the equality of the two words. -/
theorem eqComparesAllBits : Obligations.EqComparesAllBits :=
  ⟨.of_letter rfl rfl, fun s => writesOne_of_afterBinary_truthValue (exec_eq s)⟩

end Sys2Proof.Machine

/-! # Errors and refusals: which requests are refused, and what a failed `LOAD` reports (60_exceptions) -/

namespace Sys2Proof.Machine

/-! ## Idle, and instructions that complete -/

/-- Settles O32: `exec_completes`. -/
theorem everyInstructionCompletes : Obligations.EveryInstructionCompletes := exec_completes

theorem step_serveHost {s : State} (hs : s.scan = none) (hb : s.status ≠ .busy) : step s = serveHost s := by
  simp only [step, cycle, overlapRefusal_of_idle hs hb, hs, if_neg hb]

theorem serveHost_nil {s : State} (hh : s.host = []) : serveHost s = .next s := by
  rw [serveHost, hh]

/-- Settles O44: the core serves the host, which requests nothing. -/
theorem idleCoreKeepsItsState : Obligations.IdleCoreKeepsItsState :=
  fun _ hs hb hh => (step_serveHost hs hb).trans (serveHost_nil hh)

/-! ## The refusal of an overlapping request -/

/-- The refusal of a request that overlaps a running `COMPUTE` (R196). -/
def refusalWhileBusy : Request → Refusal
  | .compute _ => .computeBusy
  | .load _ => .loadBusy

/-- The refusal of a request that overlaps a running `LOAD` (R196, 93 K10). -/
def refusalWhileLoading : Request → Refusal
  | .compute _ => .computeUnloaded
  | .load _ => .loadWhileLoading

theorem overlapRefusal_busy {s : State} {q : Request} {more : List HostMove} (hh : s.host = .atOnce q :: more)
    (hb : s.status = .busy) : overlapRefusal s = some (refusalWhileBusy q) := by
  rw [overlapRefusal, hh]
  cases q <;> exact if_pos hb

theorem overlapRefusal_loading {s : State} {q : Request} {more : List HostMove} (hh : s.host = .atOnce q :: more)
    (hs : s.scan ≠ none) (hb : s.status ≠ .busy) : overlapRefusal s = some (refusalWhileLoading q) := by
  have hscan : s.scan.isSome = true := Option.isSome_iff_ne_none.mpr hs
  rw [overlapRefusal, hh]
  cases q <;> exact (if_neg hb).trans (if_pos hscan)

/-- Only a request that overlaps a transaction is refused here, under the name of that transaction. -/
theorem overlapRefusal_cases {s : State} {r : Refusal} (h : overlapRefusal s = some r) :
    ∃ q more, s.host = .atOnce q :: more ∧
      (s.status = .busy ∧ r = refusalWhileBusy q ∨
        s.status ≠ .busy ∧ s.scan ≠ none ∧ r = refusalWhileLoading q) := by
  have hwaits : waits s.host ≠ true := fun hw => by cases (overlapRefusal_of_waits hw).symm.trans h
  obtain ⟨q, more, hh⟩ : ∃ q more, s.host = .atOnce q :: more := by
    unfold waits at hwaits
    split at hwaits
    · next q more hh => exact ⟨q, more, hh⟩
    · exact (hwaits rfl).elim
  refine ⟨q, more, hh, ?_⟩
  by_cases hb : s.status = .busy
  · rw [overlapRefusal_busy hh hb] at h
    cases h
    exact .inl ⟨hb, rfl⟩
  · have hs : s.scan ≠ none := fun hs => by cases (overlapRefusal_of_idle hs hb).symm.trans h
    rw [overlapRefusal_loading hh hs hb] at h
    cases h
    exact .inr ⟨hb, hs, rfl⟩

theorem step_refused_of_overlap {s : State} {r : Refusal} (h : overlapRefusal s = some r) : step s = .refused r := by
  rw [step, cycle, h]

/-! ## What stops a step, and what cannot -/

theorem serveHost_refuses {s : State} {m : HostMove} {more : List HostMove} {a : Int} (hh : s.host = m :: more)
    (hm : requestOf m = .compute a) (hr : s.status ≠ .ready) : serveHost s = .refused .computeUnloaded := by
  simp only [serveHost, hh, hm, if_neg hr]

/-- The core between transactions goes on, or refuses a `COMPUTE` that it is not ready for. -/
theorem serveHost_cases (s : State) :
    (∃ t, serveHost s = .next t) ∨
      serveHost s = .refused .computeUnloaded ∧ s.status ≠ .ready ∧
        ∃ m more a, s.host = m :: more ∧ requestOf m = .compute a := by
  cases hh : s.host with
  | nil => exact .inl ⟨s, serveHost_nil hh⟩
  | cons m more =>
    cases hm : requestOf m with
    | load src => exact .inl ⟨_, by simp only [serveHost, hh, hm]; rfl⟩
    | compute a =>
      by_cases hr : s.status = .ready
      · exact .inl ⟨_, by simp only [serveHost, hh, hm, if_pos hr]; rfl⟩
      · exact .inr ⟨serveHost_refuses hh hm hr, hr, m, more, a, rfl, hm⟩

/-- A step of a `LOAD` stops on no character: an invalid one fails the `LOAD`, and the failure is a next state (R193). -/
theorem stepLoad_completes (sc : Scan) (s : State) : ∃ t, stepLoad sc s = .next t := by
  unfold stepLoad
  split
  · exact ⟨_, rfl⟩
  · next c rest _ =>
    by_cases hdelim : c = 0x21
    · subst hdelim
      exact ⟨_, loadChar_delim rest s⟩
    cases hbody : sc.inBody with
    | false => exact ⟨_, loadChar_header rest s hbody hdelim⟩
    | true =>
      by_cases hc : classOf c = .invalid
      · exact ⟨_, loadChar_invalid rest s hbody hc⟩
      · exact ⟨_, loadChar_body rest s hbody hdelim hc⟩

/-- A step of a `COMPUTE` stops only at a word that encodes no token, and there it is a fault. -/
theorem stepCompute_cases (s : State) :
    (∃ t, stepCompute s = .next t) ∨
      ∃ w ∈ s.prog, tokenOk w = false ∧ stepCompute s = .fault .badTokenWord := by
  unfold stepCompute
  split
  · next w hw =>
    cases hok : tokenOk w with
    | true => exact .inl (runToken_of_tokenOk hok s)
    | false =>
      refine .inr ⟨w, List.mem_of_getElem? hw, hok, ?_⟩
      unfold tokenOk at hok
      split at hok
      · cases hok
      · next hi => rw [runToken, hi]
  · exact .inl ⟨_, rfl⟩

/-- The branch a step takes: an overlapping request, a running `LOAD`, a running `COMPUTE`, or the host. -/
theorem step_branch (s : State) :
    (∃ r, overlapRefusal s = some r ∧ step s = .refused r) ∨ (∃ sc, step s = stepLoad sc s) ∨
      step s = stepCompute s ∨ s.status ≠ .busy ∧ step s = serveHost s := by
  cases ho : overlapRefusal s with
  | some r => exact .inl ⟨r, rfl, step_refused_of_overlap ho⟩
  | none =>
    cases hs : s.scan with
    | some sc => exact .inr (.inl ⟨sc, by simp only [step, cycle, ho, hs]⟩)
    | none =>
      by_cases hb : s.status = .busy
      · exact .inr (.inr (.inl (by simp only [step, cycle, ho, hs, if_pos hb])))
      · exact .inr (.inr (.inr ⟨hb, step_serveHost hs hb⟩))

/-- What makes a step answer a refusal: an overlapping request, or a `COMPUTE` that the idle core is not ready for. -/
theorem step_refused_cases {s : State} {r : Refusal} (h : step s = .refused r) :
    overlapRefusal s = some r ∨
      s.status ≠ .busy ∧ s.status ≠ .ready ∧ r = .computeUnloaded ∧
        ∃ m more a, s.host = m :: more ∧ requestOf m = .compute a := by
  obtain ⟨r', ho, hstep⟩ | ⟨sc, hstep⟩ | hstep | ⟨hb, hstep⟩ := step_branch s <;> rw [hstep] at h
  · cases h
    exact .inl ho
  · obtain ⟨t, ht⟩ := stepLoad_completes sc s
    cases ht.symm.trans h
  · obtain ⟨t, ht⟩ | ⟨w, -, -, hfault⟩ := stepCompute_cases s
    · cases ht.symm.trans h
    · cases hfault.symm.trans h
  · obtain ⟨t, ht⟩ | ⟨hrefused, hr, hrequest⟩ := serveHost_cases s
    · cases ht.symm.trans h
    · cases hrefused.symm.trans h
      exact .inr ⟨hb, hr, rfl, hrequest⟩

/-- What makes a step answer a fault: a word in `PROG` that encodes no token. -/
theorem step_fault_cases {s : State} {f : Fault} (h : step s = .fault f) : ∃ w ∈ s.prog, tokenOk w = false := by
  obtain ⟨r, -, hstep⟩ | ⟨sc, hstep⟩ | hstep | ⟨-, hstep⟩ := step_branch s <;> rw [hstep] at h
  · cases h
  · obtain ⟨t, ht⟩ := stepLoad_completes sc s
    cases ht.symm.trans h
  · obtain ⟨t, ht⟩ | ⟨w, hw, hbad, -⟩ := stepCompute_cases s
    · cases ht.symm.trans h
    · exact ⟨w, hw, hbad⟩
  · obtain ⟨t, ht⟩ | ⟨hrefused, -⟩ := serveHost_cases s
    · cases ht.symm.trans h
    · cases hrefused.symm.trans h

/-- Settles O42: a request that waits is refused by the idle core, any other by the transaction it overlaps. -/
theorem requestsOutsideTheProtocolAreRefused : Obligations.RequestsOutsideTheProtocolAreRefused := by
  refine ⟨fun s m more a hh hm hu hidle => ?_, fun s more a hh hb => step_refused_of_overlap (overlapRefusal_busy hh hb),
    fun s more src hh hb => step_refused_of_overlap (overlapRefusal_busy hh hb), fun s => rfl⟩
  have hb : s.status ≠ .busy := by simp [hu]
  by_cases hs : s.scan = none
  · rw [step_serveHost hs hb]
    exact serveHost_refuses hh hm (by simp [hu])
  · obtain rfl := hidle.resolve_left hs
    exact step_refused_of_overlap (overlapRefusal_loading hh hs hb)

/-- Settles O43: by what made the step answer a refusal, and by the request. -/
theorem nothingElseIsRefused : Obligations.NothingElseIsRefused := by
  refine ⟨fun s r h => ?_, fun s more src hh hs hb => step_refused_of_overlap (overlapRefusal_loading hh hs hb)⟩
  obtain ho | ⟨hb, hr, rfl, m, more, a, hh, hm⟩ := step_refused_cases h
  · obtain ⟨q, more, hh, hrefusal⟩ := overlapRefusal_cases ho
    refine ⟨.atOnce q, more, hh, ?_⟩
    obtain ⟨hb, rfl⟩ | ⟨hb, hs, rfl⟩ := hrefusal
    · cases q with
      | compute a => exact .inr (.inl ⟨a, rfl, hb, rfl⟩)
      | load src => exact .inr (.inr (.inl ⟨src, rfl, hb, rfl⟩))
    · cases q with
      | compute a => exact .inr (.inr (.inr (.inl ⟨a, rfl, hs, hb, rfl⟩)))
      | load src => exact .inr (.inr (.inr (.inr ⟨src, rfl, hs, hb, rfl⟩)))
  · exact ⟨m, more, hh, .inl ⟨a, hm, hr, hb, rfl⟩⟩

/-- Settles O45: the invariant leaves no word to fault on. -/
theorem noStepFaults : Obligations.NoStepFaults := by
  intro s hinv
  have htokens : ∀ w ∈ s.prog, tokenOk w ≠ false := fun w hw => by simp [List.all_eq_true.mp hinv.tokens w hw]
  refine ⟨fun f h => ?_, fun hb hw => ?_⟩
  · obtain ⟨w, hw, hbad⟩ := step_fault_cases h
    exact htokens w hw hbad
  · obtain ⟨-, hs, -⟩ := hinv.busy hb
    rw [step_stepCompute hs hb hw]
    obtain hnext | ⟨w, hw, hbad, -⟩ := stepCompute_cases s
    · exact hnext
    · exact (htokens w hw hbad).elim

/-! ## The error a `LOAD` reports -/

/-- Characters that are not `INVALID` never end the scan, whatever stands behind them (R63). -/
theorem scanBody_append_of_valid {before : List (Byte × Nat)} (h : ∀ x ∈ before, classOf x.1 ≠ .invalid)
    (toks : List (List Byte)) (innum : Bool) :
    ∃ toks' innum', ∀ after, scanBody (before ++ after) toks innum = scanBody after toks' innum' := by
  induction before generalizing toks innum with
  | nil => exact ⟨toks, innum, fun _ => rfl⟩
  | cons x before ih =>
    obtain ⟨hx, hbefore⟩ := List.forall_mem_cons.mp h
    obtain ⟨toks', innum', hscan⟩ := ih hbefore (scanChar x.1 toks innum).1 (scanChar x.1 toks innum).2
    exact ⟨toks', innum', fun after => (scanBody_valid hx x.2 _ toks innum).trans (hscan after)⟩

theorem scanBody_firstInvalid {before : List (Byte × Nat)} (h : ∀ x ∈ before, classOf x.1 ≠ .invalid) {c : Byte}
    (hc : classOf c = .invalid) (p : Nat) (after : List (Byte × Nat)) (toks : List (List Byte)) (innum : Bool) :
    scanBody (before ++ (c, p) :: after) toks innum = .error p := by
  obtain ⟨toks', innum', hscan⟩ := scanBody_append_of_valid h toks innum
  rw [hscan, scanBody, if_pos hc]

theorem scanBody_ok_of_valid {body : List (Byte × Nat)} (h : ∀ x ∈ body, classOf x.1 ≠ .invalid)
    (toks : List (List Byte)) (innum : Bool) : ∃ toks', scanBody body toks innum = .ok toks' := by
  obtain ⟨toks', innum', hscan⟩ := scanBody_append_of_valid h toks innum
  have hend := hscan []
  rw [List.append_nil] at hend
  exact ⟨toks', hend⟩

/-- The two errors of a `LOAD`: no body fails to parse as a numeral (R192). -/
theorem loadResult_ne_malformedNumeral (capacity : Option Nat) (src : List Byte) (p : Nat) :
    loadResult capacity src ≠ .error (.malformedNumeral, p) := by
  cases hscan : scanBody (bodyOf src) [] false with
  | error q => simp [loadResult_of_error hscan]
  | ok toks =>
    rw [loadResult_of_ok hscan]
    split <;> simp

/-- Settles O56: the scan of the body stops at its first `INVALID` character, and only behind a whole scan is the capacity
looked at. -/
theorem loadReportsTheFirstError : Obligations.LoadReportsTheFirstError := by
  intro capacity src
  refine ⟨fun before c p after hbody hbefore hc => ?_, fun hvalid => ?_, loadResult_ne_malformedNumeral capacity src⟩
  · exact loadResult_of_error (hbody ▸ scanBody_firstInvalid hbefore hc p after [] false) capacity
  · obtain ⟨toks, htoks⟩ := scanBody_ok_of_valid hvalid [] false
    refine ⟨toks.map tokenOfText, loadResult_of_ok htoks none, ?_⟩
    rw [loadResult_of_ok htoks, List.length_map]

end Sys2Proof.Machine

/-! # Power-on, and the end of a `LOAD` (70_reset_and_hazards R220, R221) -/

namespace Sys2Proof.Machine

/-- Settles O47: with no program, no `LOAD` and `STATUS` `UNLOADED` each part of the invariant is immediate. -/
theorem powerOnMeetsTheInvariant : Obligations.PowerOnMeetsTheInvariant where
  tokens := rfl
  capacity := rfl
  busy h := by cases h
  unloaded _ _ := rfl
  loading _ h := by cases h

/-- Settles O48: the reset state by its fields, the refusal as the idle core's of R196. -/
theorem powerOnIsUnloaded : Obligations.PowerOnIsUnloaded := by
  obtain ⟨hrefused, -⟩ := requestsOutsideTheProtocolAreRefused
  exact ⟨rfl, rfl, rfl, fun _ m a hu hs hm => hrefused _ m [] a rfl hm hu (.inl hs)⟩

theorem overCapacity_eq_false_iff (capacity : Option Nat) (n : Nat) :
    overCapacity capacity n = false ↔ ∀ c, capacity = some c → n ≤ c := by
  cases capacity <;> simp [overCapacity]

theorem overCapacity_some_of_lt {c n : Nat} (h : c < n) : overCapacity (some c) n = true := decide_eq_true h

theorem finishLoad_of_fits {sc : Scan} {s : State} (h : overCapacity s.capacity sc.toks.length = false) :
    finishLoad sc s = installProgram (sc.toks.map tokenOfText) s := by
  rw [finishLoad, if_neg (Bool.eq_false_iff.mp h)]

theorem finishLoad_of_overCapacity {sc : Scan} {s : State} (h : overCapacity s.capacity sc.toks.length = true) :
    finishLoad sc s = failLoad .programTooLong sc.pos s := by
  rw [finishLoad, if_pos h]

/-- The stack file after a successful `LOAD` is zero at every index (R221). -/
theorem readEntry_installProgram (prog : List TokenWord) (s : State) (a : Index) :
    readEntry (installProgram prog s) a = 0 :=
  Vector.getElem_replicate a.isLt

/-- Settles O54: the step is `finishLoad`, which installs the program or fails the `LOAD` by the capacity. -/
theorem successfulLoadResets : Obligations.SuccessfulLoadResets := by
  intro s sc hs hr hw
  have hstep : step s = .next (finishLoad sc s) := step_finishLoad hs hr hw
  refine ⟨fun hfits => ?_, fun c hcap hlong => ?_⟩
  · rw [finishLoad_of_fits ((overCapacity_eq_false_iff _ _).mpr hfits)] at hstep
    exact ⟨_, hstep, readEntry_installProgram _ s, rfl, rfl, rfl, rfl, rfl, rfl⟩
  · have hover : overCapacity s.capacity sc.toks.length = true := hcap ▸ overCapacity_some_of_lt hlong
    obtain ⟨hprog, hstatus, hscan, hreply⟩ := failLoad_reports .programTooLong sc.pos s
    rw [finishLoad_of_overCapacity hover] at hstep
    exact ⟨_, hstep, hstatus, hprog, hscan, hreply⟩

end Sys2Proof.Machine

/-! # TIME and GT (41_stack_ops, 45_compare) -/

namespace Sys2Proof.Machine

/-- Settles O8: TIME is one store at the new top, and what `T` latches is the residue `push` would store (R90, R92). -/
theorem timePushesTheLatch : Obligations.TimePushesTheLatch :=
  ⟨.of_letter rfl rfl, fun s => ⟨_, exec_time s, writesOne_writeEntry ..⟩, fun a _ => toNat_ofInt_eq_emod a⟩

/-- Settles O27: the relation is LT's with the order reversed, its operands in the same places. -/
theorem gtIsUnsigned : Obligations.GtIsUnsigned :=
  ⟨.of_letter rfl rfl, fun s => writesOne_of_afterBinary_truthValue (exec_gt s)⟩

end Sys2Proof.Machine
